-- ==== Sys2Proof/Word.lean ====
section
/-! DEFINITION. The plain value types of the serial framing engine: bytes, 16-bit words and port identities
(`spec/00_scope.md` section 5). -/

namespace Sys2Proof

/-- A `Byte` is 8 bits; bit 7 is the most significant (`00_scope.md` section 5). -/
abbrev Byte := BitVec 8

/-- A `Word16` is 16 bits. -/
abbrev Word16 := BitVec 16

/-- A port identity. Ports are numbered from 0; an identity that names no port record is "absent"
(R5, R240), so it is a plain number. -/
abbrev PortId := Nat

end Sys2Proof
end

