-- ==== Sys2Proof/Config.lean ====
section
/-! DEFINITION. The configuration record of `spec/00_scope.md` section 3 as plain data, the build it is part of,
and the opaque constants that stand for what the source leaves open (log 1 to 4, log 11). -/

namespace Sys2Proof

/-- A decode handler's identity: handlers are external collaborators, known to the block only by which one is
called (R226). -/
abbrev Handler := Nat

/-- What `GEN_TABLE[id] = some g` says of the generator function `g` (R227): it calls the header-only entry point,
or the generic one with a payload the caller supplies, or the generic one with a payload taken from device state. -/
inductive Generator where
  | headerOnly
  | caller
  | device
  deriving DecidableEq, Repr

/-- Which CRC-8 step function the block has: the hardware's own, which the source leaves open (R3), or the
reference function of R126 that the spec's numeric vectors use. -/
inductive Crc8Choice where
  | hardware
  | reference
  deriving DecidableEq, Repr

/-- Which CRC-16 step function the block has: the default of R125, or one the configuration leaves open (R4). -/
inductive Crc16Choice where
  | ccitt
  | hardware
  deriving DecidableEq, Repr

/-- The block-wide configuration record `Cfg` (`00_scope.md` section 3). No step of the machine writes it. -/
structure Cfg where
  /-- `Cfg.SYNC` (R1). -/
  sync : Byte
  /-- `Cfg.crc8_step` (R3). -/
  crc8 : Crc8Choice
  /-- `Cfg.crc16_step` (R4). -/
  crc16 : Crc16Choice
  /-- `RX_DATA_CAP` (R7). -/
  rxDataCap : Nat
  /-- `TABLE_LEN` (R8). -/
  tableLen : Nat
  /-- `CNT_W` (R9). -/
  cntW : Nat
  /-- `DEC_TABLE` (R10, R220). -/
  decTable : List (Option Handler)
  /-- `GEN_TABLE` (R10, R220). -/
  genTable : List (Option Generator)
  deriving DecidableEq, Repr

/-- What the build fixes of one port (R6, R12, R20, R36, R41). -/
structure PortCfg where
  /-- The port has receiver registers. -/
  hasRx : Bool
  /-- `CB_SIZE[p]`, or `none` for a port without a transmit buffer. -/
  cbSize : Option Nat
  /-- The port has a drain task. -/
  hasDrain : Bool
  /-- `RX_TIMEOUT[p]`, an opaque token. -/
  rxTimeout : Nat
  /-- `TX_TIMEOUT[p]`, an opaque token. -/
  txTimeout : Nat
  deriving DecidableEq, Repr

/-- One build of the block: the configuration record and its ports, in order of their identities (R5). -/
structure Build where
  cfg : Cfg
  ports : List PortCfg
  deriving DecidableEq, Repr

/-- The hardware's CRC-8 step function `crc8_step(byte, acc)`: open, total, nothing else assumed (R3, D2). -/
opaque Config.crc8Hardware : Byte → Byte → Byte

/-- A CRC-16 step function `crc16_step(byte, acc)` of which nothing is assumed (R4, D3). -/
opaque Config.crc16Hardware : Byte → Word16 → Word16

/-- The payload a generator function takes from device state: a free value, by command id and by how many such
payloads were taken before (R227, U13; log 11). -/
opaque Config.devicePayload : Nat → Nat → List Byte

/-- `DEC_TABLE` of the default build: the fixed cells of R222, every configuration cell present (log 2).
The handler of id `n` has identity `n`. -/
def Config.decTable : List (Option Handler) :=
  [none, some 1, some 2, none, some 4, none, none, none, none, none,
   some 10, some 11, some 12, some 13, some 14, some 15, some 16, some 17]

/-- `GEN_TABLE` of the default build: the fixed cells of R222, every configuration cell present with the payload
from the caller (log 2). -/
def Config.genTable : List (Option Generator) :=
  [none, some .headerOnly, some .headerOnly, some .caller, some .caller, none, none, none, none, none,
   some .caller, some .caller, some .caller, some .caller, some .caller, some .caller, some .caller, some .caller]

/-- The defaults of `00_scope.md` section 3. -/
def Config.cfg : Cfg where
  sync := 0xA6
  crc8 := .hardware
  crc16 := .ccitt
  rxDataCap := 255
  tableLen := 18
  cntW := 32
  decTable := Config.decTable
  genTable := Config.genTable

/-- One port with every part present and a ring of 16 slots: the defaults the spec's vectors use
(`92_eei_decisions.md`, open parameters; log 2). -/
def Config.portCfg : PortCfg where
  hasRx := true
  cbSize := some 16
  hasDrain := true
  rxTimeout := 0
  txTimeout := 0

/-- The build `State.reset` resets (log 2). -/
def Config.build : Build := { cfg := Config.cfg, ports := [Config.portCfg] }

/-- The cells of `DEC_TABLE` and `GEN_TABLE` that R222 fixes. -/
def Cfg.fixedCells (c : Cfg) : Bool :=
  (c.decTable[0]? == some none) && (c.genTable[0]? == some none) &&
  (c.genTable[1]? == some (some .headerOnly)) &&
  ((c.decTable[2]?.map Option.isSome) == some true) && (c.genTable[2]? == some (some .headerOnly)) &&
  (c.decTable[3]? == some none) &&
  ((c.genTable[3]? == some (some .caller)) || (c.genTable[3]? == some (some .device))) &&
  [5, 6, 7, 8, 9].all (fun i => (c.decTable[i]? == some none) && (c.genTable[i]? == some none)) &&
  ((c.decTable.drop 18).all Option.isNone) && ((c.genTable.drop 18).all Option.isNone)

/-- The constraints of `00_scope.md` section 3 on the configuration record: `SYNC & 0x7F ≠ 0` (R1, U18),
`RX_DATA_CAP ≥ 1`, `CNT_W ≥ 1`, `18 ≤ TABLE_LEN ≤ 128` with both tables that long (R8), the fixed cells (R222). -/
def Cfg.wf (c : Cfg) : Bool :=
  (c.sync &&& 0x7F != 0) && decide (1 ≤ c.rxDataCap) && decide (1 ≤ c.cntW) &&
  decide (18 ≤ c.tableLen ∧ c.tableLen ≤ 128) &&
  decide (c.decTable.length = c.tableLen) && decide (c.genTable.length = c.tableLen) && c.fixedCells

/-- `7 ≤ CB_SIZE[p] < 2^31` (R6); a drain task exists on a transmitting port only (R13). -/
def PortCfg.wf (c : PortCfg) : Bool :=
  match c.cbSize with
  | some n => decide (7 ≤ n ∧ n < 2 ^ 31)
  | none => !c.hasDrain

/-- A build with one to five ports (R5). -/
def Build.wf (b : Build) : Bool :=
  b.cfg.wf && decide (1 ≤ b.ports.length ∧ b.ports.length ≤ 5) && b.ports.all PortCfg.wf

end Sys2Proof
end

