-- ==== Sys2Proof/Syntax.lean ====
section
/-! DEFINITION. The syntax of the block's operations: one constructor of `Instr` per row of
`spec/opcode_table.json` (`00_scope.md` section 1: an instruction is an operation of a sub-block), with the operand
types they need. -/

namespace Sys2Proof

/-- The agents that execute steps (R13). Transports, handlers and device payloads are environment. -/
inductive Agent where
  | decode (p : PortId)
  | drain (p : PortId)
  | writer (w : Nat)
  | host
  deriving DecidableEq, Repr

/-- The five mid-frame states, the values of `rx.saved_state` (R22). -/
inductive MidState where
  | rxSize
  | rxCrc8
  | rxData
  | rxCrc16Hi
  | rxCrc16Lo
  deriving DecidableEq, Repr

/-- The eight values of `rx.state`, the decoder's program counter (R21). -/
inductive RxState where
  | waitSync
  | rxCmd
  | mid (m : MidState)
  | waitSyncOrEscapedByte
  deriving DecidableEq, Repr

/-- The causes of framing errors (R270). -/
inductive RxErrorCause where
  | invalidCmd
  | crc8Mismatch
  | crc16HiMismatch
  | crc16LoMismatch
  | rxOverrun
  deriving DecidableEq, Repr

/-- The causes a generator call fails for (R169, R272). -/
inductive CapacityCause where
  | noSpaceUpFront
  | noSpaceLate
  | tooLong
  deriving DecidableEq, Repr

/-- The causes a drain aborts for (R273). -/
inductive DrainCause where
  | inactive
  | sendFailed
  deriving DecidableEq, Repr

/-- Where a ring writer or a CRC step of a generator call takes its byte from: a byte in hand, or an accumulator
of the call in progress on the ring (R162, R163: `CRC8` is `g.crc8`, `CRC16_hi` is `g.crc16[15:8]`, `CRC16_lo` is
`g.crc16[7:0]`). -/
inductive ByteSrc where
  | lit (b : Byte)
  | genCrc8
  | genCrc16Hi
  | genCrc16Lo
  deriving DecidableEq, Repr

/-- The two forms of `crc8_step`: on values, returning the result (R120), and on the accumulator `g.crc8` of the
generator call in progress on port `p`'s ring (R39, R162). -/
inductive Crc8Form where
  | value (b acc : Byte)
  | gen (p : PortId) (src : ByteSrc)
  deriving DecidableEq, Repr

/-- The two forms of `crc16_step` (R121; R39, R163). -/
inductive Crc16Form where
  | value (b : Byte) (acc : Word16)
  | gen (p : PortId) (src : ByteSrc)
  deriving DecidableEq, Repr

/-- The operations, in the order of `spec/opcode_table.json`. `p` is a port, `who` the calling agent. -/
inductive Instr where
  /-- `SYNC`: the frame-marker byte arrives on port `p` (R91). -/
  | sync (p : PortId)
  /-- `FRAME_HEADER_ONLY`: a logical frame with `SIZE = 0` arrives on port `p` (R90). -/
  | frameHeaderOnly (p : PortId) (ack : Bool) (id : BitVec 7) (crc8 : Byte)
  /-- `FRAME_WITH_DATA`: a logical frame with `SIZE = data.length` in 1..255 arrives on port `p` (R90). -/
  | frameWithData (p : PortId) (ack : Bool) (id : BitVec 7) (crc8 : Byte) (data : List Byte) (crc16 : Word16)
  -- The `CMD` byte of one command id arrives on port `p`, `ack` its bit 7 (R92, R105 to R107).
  | cmdNone (p : PortId) (ack : Bool)
  | cmdAck (p : PortId) (ack : Bool)
  | cmdPing (p : PortId) (ack : Bool)
  | cmdDebugMessage (p : PortId) (ack : Bool)
  | cmdGetRunningMode (p : PortId) (ack : Bool)
  | cmdUnlisted5 (p : PortId) (ack : Bool)
  | cmdUnlisted6 (p : PortId) (ack : Bool)
  | cmdUnlisted7 (p : PortId) (ack : Bool)
  | cmdUnlisted8 (p : PortId) (ack : Bool)
  | cmdUnlisted9 (p : PortId) (ack : Bool)
  | cmdFwUpdate10 (p : PortId) (ack : Bool)
  | cmdFwUpdate11 (p : PortId) (ack : Bool)
  | cmdFwUpdate12 (p : PortId) (ack : Bool)
  | cmdFwUpdate13 (p : PortId) (ack : Bool)
  | cmdFwUpdate14 (p : PortId) (ack : Bool)
  | cmdFwUpdate15 (p : PortId) (ack : Bool)
  | cmdFwUpdate16 (p : PortId) (ack : Bool)
  | cmdGetDeviceInfo (p : PortId) (ack : Bool)
  | cmdUnlisted18 (p : PortId) (ack : Bool)
  | cmdUnlisted19 (p : PortId) (ack : Bool)
  | cmdUnlisted20 (p : PortId) (ack : Bool)
  | cmdUnlisted21 (p : PortId) (ack : Bool)
  | cmdUnlisted22 (p : PortId) (ack : Bool)
  | cmdUnlisted23 (p : PortId) (ack : Bool)
  | cmdUnlisted24 (p : PortId) (ack : Bool)
  | cmdUnlisted25 (p : PortId) (ack : Bool)
  | cmdUnlisted26 (p : PortId) (ack : Bool)
  | cmdUnlisted27 (p : PortId) (ack : Bool)
  | cmdUnlisted28 (p : PortId) (ack : Bool)
  | cmdUnlisted29 (p : PortId) (ack : Bool)
  | cmdUnlisted30 (p : PortId) (ack : Bool)
  | cmdUnlisted31 (p : PortId) (ack : Bool)
  | cmdUnlisted32 (p : PortId) (ack : Bool)
  | cmdUnlisted33 (p : PortId) (ack : Bool)
  | cmdUnlisted34 (p : PortId) (ack : Bool)
  | cmdUnlisted35 (p : PortId) (ack : Bool)
  | cmdUnlisted36 (p : PortId) (ack : Bool)
  | cmdUnlisted37 (p : PortId) (ack : Bool)
  | cmdUnlisted38 (p : PortId) (ack : Bool)
  | cmdUnlisted39 (p : PortId) (ack : Bool)
  | cmdUnlisted40 (p : PortId) (ack : Bool)
  | cmdUnlisted41 (p : PortId) (ack : Bool)
  | cmdUnlisted42 (p : PortId) (ack : Bool)
  | cmdUnlisted43 (p : PortId) (ack : Bool)
  | cmdUnlisted44 (p : PortId) (ack : Bool)
  | cmdUnlisted45 (p : PortId) (ack : Bool)
  | cmdUnlisted46 (p : PortId) (ack : Bool)
  | cmdUnlisted47 (p : PortId) (ack : Bool)
  | cmdUnlisted48 (p : PortId) (ack : Bool)
  | cmdUnlisted49 (p : PortId) (ack : Bool)
  | cmdUnlisted50 (p : PortId) (ack : Bool)
  | cmdUnlisted51 (p : PortId) (ack : Bool)
  | cmdUnlisted52 (p : PortId) (ack : Bool)
  | cmdUnlisted53 (p : PortId) (ack : Bool)
  | cmdUnlisted54 (p : PortId) (ack : Bool)
  | cmdUnlisted55 (p : PortId) (ack : Bool)
  | cmdUnlisted56 (p : PortId) (ack : Bool)
  | cmdUnlisted57 (p : PortId) (ack : Bool)
  | cmdUnlisted58 (p : PortId) (ack : Bool)
  | cmdUnlisted59 (p : PortId) (ack : Bool)
  | cmdUnlisted60 (p : PortId) (ack : Bool)
  | cmdUnlisted61 (p : PortId) (ack : Bool)
  | cmdUnlisted62 (p : PortId) (ack : Bool)
  | cmdUnlisted63 (p : PortId) (ack : Bool)
  | cmdUnlisted64 (p : PortId) (ack : Bool)
  | cmdUnlisted65 (p : PortId) (ack : Bool)
  | cmdUnlisted66 (p : PortId) (ack : Bool)
  | cmdUnlisted67 (p : PortId) (ack : Bool)
  | cmdUnlisted68 (p : PortId) (ack : Bool)
  | cmdUnlisted69 (p : PortId) (ack : Bool)
  | cmdUnlisted70 (p : PortId) (ack : Bool)
  | cmdUnlisted71 (p : PortId) (ack : Bool)
  | cmdUnlisted72 (p : PortId) (ack : Bool)
  | cmdUnlisted73 (p : PortId) (ack : Bool)
  | cmdUnlisted74 (p : PortId) (ack : Bool)
  | cmdUnlisted75 (p : PortId) (ack : Bool)
  | cmdUnlisted76 (p : PortId) (ack : Bool)
  | cmdUnlisted77 (p : PortId) (ack : Bool)
  | cmdUnlisted78 (p : PortId) (ack : Bool)
  | cmdUnlisted79 (p : PortId) (ack : Bool)
  | cmdUnlisted80 (p : PortId) (ack : Bool)
  | cmdUnlisted81 (p : PortId) (ack : Bool)
  | cmdUnlisted82 (p : PortId) (ack : Bool)
  | cmdUnlisted83 (p : PortId) (ack : Bool)
  | cmdUnlisted84 (p : PortId) (ack : Bool)
  | cmdUnlisted85 (p : PortId) (ack : Bool)
  | cmdUnlisted86 (p : PortId) (ack : Bool)
  | cmdUnlisted87 (p : PortId) (ack : Bool)
  | cmdUnlisted88 (p : PortId) (ack : Bool)
  | cmdUnlisted89 (p : PortId) (ack : Bool)
  | cmdUnlisted90 (p : PortId) (ack : Bool)
  | cmdUnlisted91 (p : PortId) (ack : Bool)
  | cmdUnlisted92 (p : PortId) (ack : Bool)
  | cmdUnlisted93 (p : PortId) (ack : Bool)
  | cmdUnlisted94 (p : PortId) (ack : Bool)
  | cmdUnlisted95 (p : PortId) (ack : Bool)
  | cmdUnlisted96 (p : PortId) (ack : Bool)
  | cmdUnlisted97 (p : PortId) (ack : Bool)
  | cmdUnlisted98 (p : PortId) (ack : Bool)
  | cmdUnlisted99 (p : PortId) (ack : Bool)
  | cmdUnlisted100 (p : PortId) (ack : Bool)
  | cmdUnlisted101 (p : PortId) (ack : Bool)
  | cmdUnlisted102 (p : PortId) (ack : Bool)
  | cmdUnlisted103 (p : PortId) (ack : Bool)
  | cmdUnlisted104 (p : PortId) (ack : Bool)
  | cmdUnlisted105 (p : PortId) (ack : Bool)
  | cmdUnlisted106 (p : PortId) (ack : Bool)
  | cmdUnlisted107 (p : PortId) (ack : Bool)
  | cmdUnlisted108 (p : PortId) (ack : Bool)
  | cmdUnlisted109 (p : PortId) (ack : Bool)
  | cmdUnlisted110 (p : PortId) (ack : Bool)
  | cmdUnlisted111 (p : PortId) (ack : Bool)
  | cmdUnlisted112 (p : PortId) (ack : Bool)
  | cmdUnlisted113 (p : PortId) (ack : Bool)
  | cmdUnlisted114 (p : PortId) (ack : Bool)
  | cmdUnlisted115 (p : PortId) (ack : Bool)
  | cmdUnlisted116 (p : PortId) (ack : Bool)
  | cmdUnlisted117 (p : PortId) (ack : Bool)
  | cmdUnlisted118 (p : PortId) (ack : Bool)
  | cmdUnlisted119 (p : PortId) (ack : Bool)
  | cmdUnlisted120 (p : PortId) (ack : Bool)
  | cmdUnlisted121 (p : PortId) (ack : Bool)
  | cmdUnlisted122 (p : PortId) (ack : Bool)
  | cmdUnlisted123 (p : PortId) (ack : Bool)
  | cmdUnlisted124 (p : PortId) (ack : Bool)
  | cmdUnlisted125 (p : PortId) (ack : Bool)
  | cmdUnlisted126 (p : PortId) (ack : Bool)
  | cmdUnlisted127 (p : PortId) (ack : Bool)
  /-- `crc8_step` (R120). -/
  | crc8Step (who : Agent) (form : Crc8Form)
  /-- `crc16_step` (R121). -/
  | crc16Step (who : Agent) (form : Crc16Form)
  /-- `cb_claim(T, who)` (R132). -/
  | cbClaim (who : Agent) (p : PortId)
  /-- `cb_release(T, who)` (R133). -/
  | cbRelease (who : Agent) (p : PortId)
  /-- `cb_free(T)` (R134). -/
  | cbFree (who : Agent) (p : PortId)
  /-- `cb_write_raw(T, b, prov)` (R135). -/
  | cbWriteRaw (who : Agent) (p : PortId) (src : ByteSrc)
  /-- `cb_write_esc(T, b, prov)` (R136). -/
  | cbWriteEsc (who : Agent) (p : PortId) (src : ByteSrc)
  /-- `cb_commit(T, prov)` (R138). -/
  | cbCommit (who : Agent) (p : PortId)
  /-- Discard: the provisional count is dropped, nothing is committed (R139). -/
  | cbDiscard (who : Agent) (p : PortId)
  /-- `cb_is_empty(T)` (R140). -/
  | cbIsEmpty (who : Agent) (p : PortId)
  /-- `cb_readable_run(T)` (R141). -/
  | cbReadableRun (who : Agent) (p : PortId)
  /-- `cb_read_run(T, start, len)` (R142). -/
  | cbReadRun (who : Agent) (p : PortId) (start len : Nat)
  /-- `cb_advance(T, n)` (R143). -/
  | cbAdvance (who : Agent) (p : PortId) (n : Nat)
  /-- `gen_header_only(T, cmd)` (R162). -/
  | genHeaderOnly (who : Agent) (p : PortId) (cmd : Byte)
  /-- `gen_generic(T, cmd, data)` (R163 to R165). -/
  | genGeneric (who : Agent) (p : PortId) (cmd : Byte) (data : List Byte)
  /-- `rx_step(p, b)`: the decoder byte step (R180, R181). -/
  | rxStep (p : PortId) (b : Byte)
  /-- The handler of state `WaitSync` on byte `b` (R183). -/
  | rxWaitSync (p : PortId) (b : Byte)
  /-- `reseed(R)` (R184). -/
  | rxReseed (p : PortId)
  /-- The handler of state `RxCmd` on byte `b` (R185). -/
  | rxRxCmd (p : PortId) (b : Byte)
  /-- The handler of state `RxSize` on byte `b` (R187). -/
  | rxRxSize (p : PortId) (b : Byte)
  /-- The handler of state `RxCrc8` on byte `b` (R188). -/
  | rxRxCrc8 (p : PortId) (b : Byte)
  /-- `rx_fail(R, cause)` (R189). -/
  | rxFail (p : PortId) (cause : RxErrorCause)
  /-- `complete(R)` (R190). -/
  | rxComplete (p : PortId)
  /-- The handler of state `RxData` on byte `b` (R191). -/
  | rxRxData (p : PortId) (b : Byte)
  /-- The handler of state `RxCrc16Hi` on byte `b` (R193). -/
  | rxRxCrc16Hi (p : PortId) (b : Byte)
  /-- The handler of state `RxCrc16Lo` on byte `b` (R194). -/
  | rxRxCrc16Lo (p : PortId) (b : Byte)
  /-- `WaitSyncOrEscapedByte`, the byte is `SYNC` (R195). -/
  | rxEscapeConfirmed (p : PortId)
  /-- `WaitSyncOrEscapedByte`, the byte `b` is not `SYNC` (R196). -/
  | rxAbandonRestart (p : PortId) (b : Byte)
  /-- The ACK reply of a completed frame on port `p` (R197). -/
  | rxSendAck (p : PortId)
  /-- `lookup_dec(id)` (R221). -/
  | lookupDec (who : Agent) (id : Nat)
  /-- `lookup_gen(id)` (R221). -/
  | lookupGen (who : Agent) (id : Nat)
  /-- `generate_and_send(cmd, p, data)` (R241). -/
  | generateAndSend (who : Agent) (cmd : Byte) (p : PortId) (data : List Byte)
  /-- `signal(p)` (R246). -/
  | signal (p : PortId)
  /-- DrainTask(p) wakes (R248). -/
  | drainWake (p : PortId)
  /-- DrainTask(p) executes the next numbered line of its loop (R249). -/
  | drainIteration (p : PortId)
  /-- DrainTask(p) leaves its loop with bytes left (R250). -/
  | drainAbort (p : PortId) (cause : DrainCause)
  /-- One round of the decode task's loop (R253). -/
  | decodeTaskIteration (p : PortId)
  /-- The input byte class `SYNC` of the mid-frame states (R181). -/
  | rxByteSyncMidframe (p : PortId)
  deriving DecidableEq, Repr


/-- The constructors of the `CMD` rows of ids 0 to 15, in order (R105). -/
def cmdRows0 : List (PortId → Bool → Instr) :=
  [Instr.cmdNone, Instr.cmdAck, Instr.cmdPing, Instr.cmdDebugMessage, Instr.cmdGetRunningMode,
   Instr.cmdUnlisted5, Instr.cmdUnlisted6, Instr.cmdUnlisted7, Instr.cmdUnlisted8, Instr.cmdUnlisted9, Instr.cmdFwUpdate10,
   Instr.cmdFwUpdate11, Instr.cmdFwUpdate12, Instr.cmdFwUpdate13, Instr.cmdFwUpdate14, Instr.cmdFwUpdate15]

/-- The constructors of the `CMD` rows of ids 16 to 31, in order (R105). -/
def cmdRows16 : List (PortId → Bool → Instr) :=
  [Instr.cmdFwUpdate16, Instr.cmdGetDeviceInfo, Instr.cmdUnlisted18, Instr.cmdUnlisted19, Instr.cmdUnlisted20,
   Instr.cmdUnlisted21, Instr.cmdUnlisted22, Instr.cmdUnlisted23, Instr.cmdUnlisted24, Instr.cmdUnlisted25, Instr.cmdUnlisted26,
   Instr.cmdUnlisted27, Instr.cmdUnlisted28, Instr.cmdUnlisted29, Instr.cmdUnlisted30, Instr.cmdUnlisted31]

/-- The constructors of the `CMD` rows of ids 32 to 47, in order (R105). -/
def cmdRows32 : List (PortId → Bool → Instr) :=
  [Instr.cmdUnlisted32, Instr.cmdUnlisted33, Instr.cmdUnlisted34, Instr.cmdUnlisted35, Instr.cmdUnlisted36,
   Instr.cmdUnlisted37, Instr.cmdUnlisted38, Instr.cmdUnlisted39, Instr.cmdUnlisted40, Instr.cmdUnlisted41, Instr.cmdUnlisted42,
   Instr.cmdUnlisted43, Instr.cmdUnlisted44, Instr.cmdUnlisted45, Instr.cmdUnlisted46, Instr.cmdUnlisted47]

/-- The constructors of the `CMD` rows of ids 48 to 63, in order (R105). -/
def cmdRows48 : List (PortId → Bool → Instr) :=
  [Instr.cmdUnlisted48, Instr.cmdUnlisted49, Instr.cmdUnlisted50, Instr.cmdUnlisted51, Instr.cmdUnlisted52,
   Instr.cmdUnlisted53, Instr.cmdUnlisted54, Instr.cmdUnlisted55, Instr.cmdUnlisted56, Instr.cmdUnlisted57, Instr.cmdUnlisted58,
   Instr.cmdUnlisted59, Instr.cmdUnlisted60, Instr.cmdUnlisted61, Instr.cmdUnlisted62, Instr.cmdUnlisted63]

/-- The constructors of the `CMD` rows of ids 64 to 79, in order (R105). -/
def cmdRows64 : List (PortId → Bool → Instr) :=
  [Instr.cmdUnlisted64, Instr.cmdUnlisted65, Instr.cmdUnlisted66, Instr.cmdUnlisted67, Instr.cmdUnlisted68,
   Instr.cmdUnlisted69, Instr.cmdUnlisted70, Instr.cmdUnlisted71, Instr.cmdUnlisted72, Instr.cmdUnlisted73, Instr.cmdUnlisted74,
   Instr.cmdUnlisted75, Instr.cmdUnlisted76, Instr.cmdUnlisted77, Instr.cmdUnlisted78, Instr.cmdUnlisted79]

/-- The constructors of the `CMD` rows of ids 80 to 95, in order (R105). -/
def cmdRows80 : List (PortId → Bool → Instr) :=
  [Instr.cmdUnlisted80, Instr.cmdUnlisted81, Instr.cmdUnlisted82, Instr.cmdUnlisted83, Instr.cmdUnlisted84,
   Instr.cmdUnlisted85, Instr.cmdUnlisted86, Instr.cmdUnlisted87, Instr.cmdUnlisted88, Instr.cmdUnlisted89, Instr.cmdUnlisted90,
   Instr.cmdUnlisted91, Instr.cmdUnlisted92, Instr.cmdUnlisted93, Instr.cmdUnlisted94, Instr.cmdUnlisted95]

/-- The constructors of the `CMD` rows of ids 96 to 111, in order (R105). -/
def cmdRows96 : List (PortId → Bool → Instr) :=
  [Instr.cmdUnlisted96, Instr.cmdUnlisted97, Instr.cmdUnlisted98, Instr.cmdUnlisted99, Instr.cmdUnlisted100,
   Instr.cmdUnlisted101, Instr.cmdUnlisted102, Instr.cmdUnlisted103, Instr.cmdUnlisted104, Instr.cmdUnlisted105, Instr.cmdUnlisted106,
   Instr.cmdUnlisted107, Instr.cmdUnlisted108, Instr.cmdUnlisted109, Instr.cmdUnlisted110, Instr.cmdUnlisted111]

/-- The constructors of the `CMD` rows of ids 112 to 127, in order (R105). -/
def cmdRows112 : List (PortId → Bool → Instr) :=
  [Instr.cmdUnlisted112, Instr.cmdUnlisted113, Instr.cmdUnlisted114, Instr.cmdUnlisted115, Instr.cmdUnlisted116,
   Instr.cmdUnlisted117, Instr.cmdUnlisted118, Instr.cmdUnlisted119, Instr.cmdUnlisted120, Instr.cmdUnlisted121, Instr.cmdUnlisted122,
   Instr.cmdUnlisted123, Instr.cmdUnlisted124, Instr.cmdUnlisted125, Instr.cmdUnlisted126, Instr.cmdUnlisted127]

/-- The constructor of each `CMD` row, in the order of the command ids 0 to 127 (R105). -/
def cmdTable : List (PortId → Bool → Instr) :=
  List.flatten [cmdRows0, cmdRows16, cmdRows32, cmdRows48, cmdRows64, cmdRows80, cmdRows96, cmdRows112]

/-- The instruction of the `CMD` byte with this id and ack bit, arriving on port `p` (R92). -/
def cmdInstr (id : BitVec 7) (p : PortId) (ack : Bool) : Instr :=
  (cmdTable.getD id.toNat .cmdUnlisted127) p ack

/-- The operands of a `CMD` row's instruction: port, ack bit and command id. -/
def Instr.cmdOperands : Instr → Option (PortId × Bool × BitVec 7)
  | .cmdNone p ack => some (p, ack, 0)
  | .cmdAck p ack => some (p, ack, 1)
  | .cmdPing p ack => some (p, ack, 2)
  | .cmdDebugMessage p ack => some (p, ack, 3)
  | .cmdGetRunningMode p ack => some (p, ack, 4)
  | .cmdUnlisted5 p ack => some (p, ack, 5)
  | .cmdUnlisted6 p ack => some (p, ack, 6)
  | .cmdUnlisted7 p ack => some (p, ack, 7)
  | .cmdUnlisted8 p ack => some (p, ack, 8)
  | .cmdUnlisted9 p ack => some (p, ack, 9)
  | .cmdFwUpdate10 p ack => some (p, ack, 10)
  | .cmdFwUpdate11 p ack => some (p, ack, 11)
  | .cmdFwUpdate12 p ack => some (p, ack, 12)
  | .cmdFwUpdate13 p ack => some (p, ack, 13)
  | .cmdFwUpdate14 p ack => some (p, ack, 14)
  | .cmdFwUpdate15 p ack => some (p, ack, 15)
  | .cmdFwUpdate16 p ack => some (p, ack, 16)
  | .cmdGetDeviceInfo p ack => some (p, ack, 17)
  | .cmdUnlisted18 p ack => some (p, ack, 18)
  | .cmdUnlisted19 p ack => some (p, ack, 19)
  | .cmdUnlisted20 p ack => some (p, ack, 20)
  | .cmdUnlisted21 p ack => some (p, ack, 21)
  | .cmdUnlisted22 p ack => some (p, ack, 22)
  | .cmdUnlisted23 p ack => some (p, ack, 23)
  | .cmdUnlisted24 p ack => some (p, ack, 24)
  | .cmdUnlisted25 p ack => some (p, ack, 25)
  | .cmdUnlisted26 p ack => some (p, ack, 26)
  | .cmdUnlisted27 p ack => some (p, ack, 27)
  | .cmdUnlisted28 p ack => some (p, ack, 28)
  | .cmdUnlisted29 p ack => some (p, ack, 29)
  | .cmdUnlisted30 p ack => some (p, ack, 30)
  | .cmdUnlisted31 p ack => some (p, ack, 31)
  | .cmdUnlisted32 p ack => some (p, ack, 32)
  | .cmdUnlisted33 p ack => some (p, ack, 33)
  | .cmdUnlisted34 p ack => some (p, ack, 34)
  | .cmdUnlisted35 p ack => some (p, ack, 35)
  | .cmdUnlisted36 p ack => some (p, ack, 36)
  | .cmdUnlisted37 p ack => some (p, ack, 37)
  | .cmdUnlisted38 p ack => some (p, ack, 38)
  | .cmdUnlisted39 p ack => some (p, ack, 39)
  | .cmdUnlisted40 p ack => some (p, ack, 40)
  | .cmdUnlisted41 p ack => some (p, ack, 41)
  | .cmdUnlisted42 p ack => some (p, ack, 42)
  | .cmdUnlisted43 p ack => some (p, ack, 43)
  | .cmdUnlisted44 p ack => some (p, ack, 44)
  | .cmdUnlisted45 p ack => some (p, ack, 45)
  | .cmdUnlisted46 p ack => some (p, ack, 46)
  | .cmdUnlisted47 p ack => some (p, ack, 47)
  | .cmdUnlisted48 p ack => some (p, ack, 48)
  | .cmdUnlisted49 p ack => some (p, ack, 49)
  | .cmdUnlisted50 p ack => some (p, ack, 50)
  | .cmdUnlisted51 p ack => some (p, ack, 51)
  | .cmdUnlisted52 p ack => some (p, ack, 52)
  | .cmdUnlisted53 p ack => some (p, ack, 53)
  | .cmdUnlisted54 p ack => some (p, ack, 54)
  | .cmdUnlisted55 p ack => some (p, ack, 55)
  | .cmdUnlisted56 p ack => some (p, ack, 56)
  | .cmdUnlisted57 p ack => some (p, ack, 57)
  | .cmdUnlisted58 p ack => some (p, ack, 58)
  | .cmdUnlisted59 p ack => some (p, ack, 59)
  | .cmdUnlisted60 p ack => some (p, ack, 60)
  | .cmdUnlisted61 p ack => some (p, ack, 61)
  | .cmdUnlisted62 p ack => some (p, ack, 62)
  | .cmdUnlisted63 p ack => some (p, ack, 63)
  | .cmdUnlisted64 p ack => some (p, ack, 64)
  | .cmdUnlisted65 p ack => some (p, ack, 65)
  | .cmdUnlisted66 p ack => some (p, ack, 66)
  | .cmdUnlisted67 p ack => some (p, ack, 67)
  | .cmdUnlisted68 p ack => some (p, ack, 68)
  | .cmdUnlisted69 p ack => some (p, ack, 69)
  | .cmdUnlisted70 p ack => some (p, ack, 70)
  | .cmdUnlisted71 p ack => some (p, ack, 71)
  | .cmdUnlisted72 p ack => some (p, ack, 72)
  | .cmdUnlisted73 p ack => some (p, ack, 73)
  | .cmdUnlisted74 p ack => some (p, ack, 74)
  | .cmdUnlisted75 p ack => some (p, ack, 75)
  | .cmdUnlisted76 p ack => some (p, ack, 76)
  | .cmdUnlisted77 p ack => some (p, ack, 77)
  | .cmdUnlisted78 p ack => some (p, ack, 78)
  | .cmdUnlisted79 p ack => some (p, ack, 79)
  | .cmdUnlisted80 p ack => some (p, ack, 80)
  | .cmdUnlisted81 p ack => some (p, ack, 81)
  | .cmdUnlisted82 p ack => some (p, ack, 82)
  | .cmdUnlisted83 p ack => some (p, ack, 83)
  | .cmdUnlisted84 p ack => some (p, ack, 84)
  | .cmdUnlisted85 p ack => some (p, ack, 85)
  | .cmdUnlisted86 p ack => some (p, ack, 86)
  | .cmdUnlisted87 p ack => some (p, ack, 87)
  | .cmdUnlisted88 p ack => some (p, ack, 88)
  | .cmdUnlisted89 p ack => some (p, ack, 89)
  | .cmdUnlisted90 p ack => some (p, ack, 90)
  | .cmdUnlisted91 p ack => some (p, ack, 91)
  | .cmdUnlisted92 p ack => some (p, ack, 92)
  | .cmdUnlisted93 p ack => some (p, ack, 93)
  | .cmdUnlisted94 p ack => some (p, ack, 94)
  | .cmdUnlisted95 p ack => some (p, ack, 95)
  | .cmdUnlisted96 p ack => some (p, ack, 96)
  | .cmdUnlisted97 p ack => some (p, ack, 97)
  | .cmdUnlisted98 p ack => some (p, ack, 98)
  | .cmdUnlisted99 p ack => some (p, ack, 99)
  | .cmdUnlisted100 p ack => some (p, ack, 100)
  | .cmdUnlisted101 p ack => some (p, ack, 101)
  | .cmdUnlisted102 p ack => some (p, ack, 102)
  | .cmdUnlisted103 p ack => some (p, ack, 103)
  | .cmdUnlisted104 p ack => some (p, ack, 104)
  | .cmdUnlisted105 p ack => some (p, ack, 105)
  | .cmdUnlisted106 p ack => some (p, ack, 106)
  | .cmdUnlisted107 p ack => some (p, ack, 107)
  | .cmdUnlisted108 p ack => some (p, ack, 108)
  | .cmdUnlisted109 p ack => some (p, ack, 109)
  | .cmdUnlisted110 p ack => some (p, ack, 110)
  | .cmdUnlisted111 p ack => some (p, ack, 111)
  | .cmdUnlisted112 p ack => some (p, ack, 112)
  | .cmdUnlisted113 p ack => some (p, ack, 113)
  | .cmdUnlisted114 p ack => some (p, ack, 114)
  | .cmdUnlisted115 p ack => some (p, ack, 115)
  | .cmdUnlisted116 p ack => some (p, ack, 116)
  | .cmdUnlisted117 p ack => some (p, ack, 117)
  | .cmdUnlisted118 p ack => some (p, ack, 118)
  | .cmdUnlisted119 p ack => some (p, ack, 119)
  | .cmdUnlisted120 p ack => some (p, ack, 120)
  | .cmdUnlisted121 p ack => some (p, ack, 121)
  | .cmdUnlisted122 p ack => some (p, ack, 122)
  | .cmdUnlisted123 p ack => some (p, ack, 123)
  | .cmdUnlisted124 p ack => some (p, ack, 124)
  | .cmdUnlisted125 p ack => some (p, ack, 125)
  | .cmdUnlisted126 p ack => some (p, ack, 126)
  | .cmdUnlisted127 p ack => some (p, ack, 127)
  | .sync _ | .frameHeaderOnly _ _ _ _ | .frameWithData _ _ _ _ _ _ | .crc8Step _ _
  | .crc16Step _ _ | .cbClaim _ _ | .cbRelease _ _ | .cbFree _ _
  | .cbWriteRaw _ _ _ | .cbWriteEsc _ _ _ | .cbCommit _ _ | .cbDiscard _ _
  | .cbIsEmpty _ _ | .cbReadableRun _ _ | .cbReadRun _ _ _ _ | .cbAdvance _ _ _
  | .genHeaderOnly _ _ _ | .genGeneric _ _ _ _ | .rxStep _ _ | .rxWaitSync _ _
  | .rxReseed _ | .rxRxCmd _ _ | .rxRxSize _ _ | .rxRxCrc8 _ _
  | .rxFail _ _ | .rxComplete _ | .rxRxData _ _ | .rxRxCrc16Hi _ _
  | .rxRxCrc16Lo _ _ | .rxEscapeConfirmed _ | .rxAbandonRestart _ _ | .rxSendAck _
  | .lookupDec _ _ | .lookupGen _ _ | .generateAndSend _ _ _ _ | .signal _
  | .drainWake _ | .drainIteration _ | .drainAbort _ _ | .decodeTaskIteration _
  | .rxByteSyncMidframe _ => none

end Sys2Proof
end

