-- ==== Sys2Proof/WellFormed.lean ====
section
/-! DEFINITION. Which instructions are well formed: the checks on operands that the spec states without reference
to the state of the machine. -/

namespace Sys2Proof

/-- There are at most five ports, 0 to 4 (R5). -/
def portWf (p : PortId) : Bool := decide (p < 5)

/-- An agent of one of the ports, a writer or the host (R13). -/
def Agent.wf : Agent → Bool
  | .decode p | .drain p => portWf p
  | .writer _ | .host => true

/-- Ports are below five; a frame with data has a `SIZE` of 1 to 255 (R90); a table query asks for an id of 0 to
127 (R221). `generate_and_send` and `signal` take any port identity: one that names no port is "absent" (R240, U17). -/
def Instr.wf : Instr → Bool
  | .sync p | .rxByteSyncMidframe p | .frameHeaderOnly p _ _ _ => portWf p
  | .frameWithData p _ _ _ data _ => portWf p && decide (1 ≤ data.length ∧ data.length ≤ 255)
  | .cmdNone p _ | .cmdAck p _ | .cmdPing p _ | .cmdDebugMessage p _
  | .cmdGetRunningMode p _ | .cmdUnlisted5 p _ | .cmdUnlisted6 p _ | .cmdUnlisted7 p _
  | .cmdUnlisted8 p _ | .cmdUnlisted9 p _ | .cmdFwUpdate10 p _ | .cmdFwUpdate11 p _
  | .cmdFwUpdate12 p _ | .cmdFwUpdate13 p _ | .cmdFwUpdate14 p _ | .cmdFwUpdate15 p _
  | .cmdFwUpdate16 p _ | .cmdGetDeviceInfo p _ | .cmdUnlisted18 p _ | .cmdUnlisted19 p _
  | .cmdUnlisted20 p _ | .cmdUnlisted21 p _ | .cmdUnlisted22 p _ | .cmdUnlisted23 p _
  | .cmdUnlisted24 p _ | .cmdUnlisted25 p _ | .cmdUnlisted26 p _ | .cmdUnlisted27 p _
  | .cmdUnlisted28 p _ | .cmdUnlisted29 p _ | .cmdUnlisted30 p _ | .cmdUnlisted31 p _
  | .cmdUnlisted32 p _ | .cmdUnlisted33 p _ | .cmdUnlisted34 p _ | .cmdUnlisted35 p _
  | .cmdUnlisted36 p _ | .cmdUnlisted37 p _ | .cmdUnlisted38 p _ | .cmdUnlisted39 p _
  | .cmdUnlisted40 p _ | .cmdUnlisted41 p _ | .cmdUnlisted42 p _ | .cmdUnlisted43 p _
  | .cmdUnlisted44 p _ | .cmdUnlisted45 p _ | .cmdUnlisted46 p _ | .cmdUnlisted47 p _
  | .cmdUnlisted48 p _ | .cmdUnlisted49 p _ | .cmdUnlisted50 p _ | .cmdUnlisted51 p _
  | .cmdUnlisted52 p _ | .cmdUnlisted53 p _ | .cmdUnlisted54 p _ | .cmdUnlisted55 p _
  | .cmdUnlisted56 p _ | .cmdUnlisted57 p _ | .cmdUnlisted58 p _ | .cmdUnlisted59 p _
  | .cmdUnlisted60 p _ | .cmdUnlisted61 p _ | .cmdUnlisted62 p _ | .cmdUnlisted63 p _
  | .cmdUnlisted64 p _ | .cmdUnlisted65 p _ | .cmdUnlisted66 p _ | .cmdUnlisted67 p _
  | .cmdUnlisted68 p _ | .cmdUnlisted69 p _ | .cmdUnlisted70 p _ | .cmdUnlisted71 p _
  | .cmdUnlisted72 p _ | .cmdUnlisted73 p _ | .cmdUnlisted74 p _ | .cmdUnlisted75 p _
  | .cmdUnlisted76 p _ | .cmdUnlisted77 p _ | .cmdUnlisted78 p _ | .cmdUnlisted79 p _
  | .cmdUnlisted80 p _ | .cmdUnlisted81 p _ | .cmdUnlisted82 p _ | .cmdUnlisted83 p _
  | .cmdUnlisted84 p _ | .cmdUnlisted85 p _ | .cmdUnlisted86 p _ | .cmdUnlisted87 p _
  | .cmdUnlisted88 p _ | .cmdUnlisted89 p _ | .cmdUnlisted90 p _ | .cmdUnlisted91 p _
  | .cmdUnlisted92 p _ | .cmdUnlisted93 p _ | .cmdUnlisted94 p _ | .cmdUnlisted95 p _
  | .cmdUnlisted96 p _ | .cmdUnlisted97 p _ | .cmdUnlisted98 p _ | .cmdUnlisted99 p _
  | .cmdUnlisted100 p _ | .cmdUnlisted101 p _ | .cmdUnlisted102 p _ | .cmdUnlisted103 p _
  | .cmdUnlisted104 p _ | .cmdUnlisted105 p _ | .cmdUnlisted106 p _ | .cmdUnlisted107 p _
  | .cmdUnlisted108 p _ | .cmdUnlisted109 p _ | .cmdUnlisted110 p _ | .cmdUnlisted111 p _
  | .cmdUnlisted112 p _ | .cmdUnlisted113 p _ | .cmdUnlisted114 p _ | .cmdUnlisted115 p _
  | .cmdUnlisted116 p _ | .cmdUnlisted117 p _ | .cmdUnlisted118 p _ | .cmdUnlisted119 p _
  | .cmdUnlisted120 p _ | .cmdUnlisted121 p _ | .cmdUnlisted122 p _ | .cmdUnlisted123 p _
  | .cmdUnlisted124 p _ | .cmdUnlisted125 p _ | .cmdUnlisted126 p _ | .cmdUnlisted127 p _ => portWf p
  | .crc8Step who (.value _ _) | .crc16Step who (.value _ _) => who.wf
  | .crc8Step who (.gen p _) | .crc16Step who (.gen p _) => who.wf && portWf p
  | .cbClaim who p | .cbRelease who p | .cbFree who p | .cbCommit who p | .cbDiscard who p | .cbIsEmpty who p
  | .cbReadableRun who p | .cbReadRun who p _ _ | .cbAdvance who p _ | .cbWriteRaw who p _ | .cbWriteEsc who p _
  | .genHeaderOnly who p _ | .genGeneric who p _ _ => who.wf && portWf p
  | .generateAndSend who _ _ _ => who.wf
  | .rxStep p _ | .rxWaitSync p _ | .rxReseed p | .rxRxCmd p _ | .rxRxSize p _ | .rxRxCrc8 p _ | .rxFail p _
  | .rxComplete p | .rxRxData p _ | .rxRxCrc16Hi p _ | .rxRxCrc16Lo p _ | .rxEscapeConfirmed p
  | .rxAbandonRestart p _ | .rxSendAck p => portWf p
  | .lookupDec who id | .lookupGen who id => who.wf && decide (id < 128)
  | .signal _ => true
  | .drainWake p | .drainIteration p | .drainAbort p _ | .decodeTaskIteration p => portWf p

end Sys2Proof
end

