-- ==== Sys2Proof/Decode.lean ====
section
/-! DEFINITION. The wire format (`spec/30_encoding.md`): the fields of the `CMD` byte, the logical frame, decoding
bytes into instructions in the decoder's state, and the encoder. The 37 operations whose encoding in
`spec/opcode_table.json` is "-" have no words. -/

namespace Sys2Proof

/-- Bits 15:8 of a word, `CRC16_hi` (R96). -/
def hiOctet (c : Word16) : Byte := c.extractLsb' 8 8

/-- Bits 7:0 of a word, `CRC16_lo` (R96). -/
def loOctet (c : Word16) : Byte := c.extractLsb' 0 8

/-- The `CMD` byte: bit 7 the ack request, bits 6:0 the command id (R92). -/
def cmdByte (ack : Bool) (id : BitVec 7) : Byte := BitVec.ofBool ack ++ id

/-- `id = CMD[6:0]` (R103). -/
def cmdIdOf (b : Byte) : BitVec 7 := b.extractLsb' 0 7

/-- `ack = CMD[7]` (R103). -/
def cmdAckOf (b : Byte) : Bool := b.msb

/-- The `SIZE` byte of a payload (R93). -/
def sizeByte (data : List Byte) : Byte := BitVec.ofNat 8 data.length

/-- The four header bytes of a logical frame (R90). -/
def headerBytes (sync cmd size crc8 : Byte) : List Byte := [sync, cmd, size, crc8]

/-- The logical frame with `SIZE > 0` (R90): header, data, `CRC16` high octet first (R65). -/
def dataFrameBytes (sync cmd crc8 : Byte) (data : List Byte) (crc16 : Word16) : List Byte :=
  headerBytes sync cmd (sizeByte data) crc8 ++ data ++ [hiOctet crc16, loOctet crc16]

/-- Escape doubling: every byte after the first that equals `SYNC` is written twice (R97). -/
def escapeBytes (sync : Byte) : List Byte → List Byte
  | [] => []
  | b :: bs => if b = sync then b :: b :: escapeBytes sync bs else b :: escapeBytes sync bs

/-- The wire frame of a logical frame: the opening byte as it is, the rest escaped (R91, R97). -/
def wire (sync : Byte) : List Byte → List Byte
  | [] => []
  | b :: bs => b :: escapeBytes sync bs

/-- What decoding a byte depends on: `SYNC`, the decoder's state and the port the byte arrives on. -/
structure DecodeCtx where
  sync : Byte
  state : RxState
  port : PortId
  deriving DecidableEq, Repr

/-- Why bytes are no instruction. -/
inductive DecodeError where
  /-- There are no bytes. -/
  | noBytes
  /-- A frame's first byte is not `SYNC` (R90, R91). -/
  | notSync
  /-- Two or three bytes: no row of the table is that long. -/
  | truncated
  /-- The number of bytes after the header is not what `SIZE` says (R90). -/
  | wrongLength
  deriving DecidableEq, Repr

/-- The answer of the decoder. -/
inductive Decoded where
  | instr (i : Instr)
  | rejected (e : DecodeError)
  deriving DecidableEq, Repr

/-- The instruction a byte is in a mid-frame state, when it is delivered to that state's handler (R182, R198). -/
def decodeMid (p : PortId) (b : Byte) : MidState → Instr
  | .rxSize => .rxRxSize p b
  | .rxCrc8 => .rxRxCrc8 p b
  | .rxData => .rxRxData p b
  | .rxCrc16Hi => .rxRxCrc16Hi p b
  | .rxCrc16Lo => .rxRxCrc16Lo p b

/-- The instruction one wire byte is in the decoder's state: the row of the transition table R198. In `RxCmd` every
byte, `SYNC` too, is a `CMD` byte (R185, R186). -/
def decodeByte (c : DecodeCtx) (b : Byte) : Instr :=
  match c.state with
  | .waitSync => if b = c.sync then .sync c.port else .rxWaitSync c.port b
  | .rxCmd => cmdInstr (cmdIdOf b) c.port (cmdAckOf b)
  | .mid m => if b = c.sync then .rxByteSyncMidframe c.port else decodeMid c.port b m
  | .waitSyncOrEscapedByte => if b = c.sync then .rxEscapeConfirmed c.port else .rxAbandonRestart c.port b

/-- The bytes after a data frame's header: `n` data bytes, then the two octets of `CRC16`. -/
def splitData : Nat → List Byte → Option (List Byte × Word16)
  | 0, [hi, lo] => some ([], hi ++ lo)
  | n + 1, b :: rest => (splitData n rest).map fun (data, crc) => (b :: data, crc)
  | _, _ => none

/-- A whole logical frame given by its bytes (R90): header-only exactly when `SIZE = 0`. -/
def decodeFrame (c : DecodeCtx) (b0 cmd size crc8 : Byte) (rest : List Byte) : Decoded :=
  if b0 = c.sync then
    if size = 0 then
      if rest = [] then .instr (.frameHeaderOnly c.port (cmdAckOf cmd) (cmdIdOf cmd) crc8) else .rejected .wrongLength
    else
      match splitData size.toNat rest with
      | some (data, crc16) => .instr (.frameWithData c.port (cmdAckOf cmd) (cmdIdOf cmd) crc8 data crc16)
      | none => .rejected .wrongLength
  else .rejected .notSync

/-- The decoder, total on any bytes: one byte is read in the decoder's state, four or more are a logical frame. -/
def decode (c : DecodeCtx) : List Byte → Decoded
  | [] => .rejected .noBytes
  | [b] => .instr (decodeByte c b)
  | b0 :: cmd :: size :: crc8 :: rest => decodeFrame c b0 cmd size crc8 rest
  | _ => .rejected .truncated

/-- The bytes of an instruction that has an encoding (R90, R91, R92), `none` for the 37 operations without one. -/
def encode (sync : Byte) (i : Instr) : Option (List Byte) :=
  match i with
  | .sync _ => some [sync]
  | .rxByteSyncMidframe _ => some [sync]
  | .frameHeaderOnly _ ack id crc8 => some (headerBytes sync (cmdByte ack id) 0 crc8)
  | .frameWithData _ ack id crc8 data crc16 => some (dataFrameBytes sync (cmdByte ack id) crc8 data crc16)
  | i => i.cmdOperands.map fun (_, ack, id) => [cmdByte ack id]

/-- The decoder's state in which a one-byte word of the table is the first instruction: `SYNC` opens a frame in
`WaitSync`, any other byte is a `CMD` byte in `RxCmd` (log 17). -/
def tableState (sync b : Byte) : RxState := if b = sync then .waitSync else .rxCmd

/-- The context of a word of the table on port 0, under the default `SYNC`. -/
def tableCtx (b : Byte) : DecodeCtx := { sync := Config.cfg.sync, state := tableState Config.cfg.sync b, port := 0 }

/-- The bytes of a table word. A one-byte row is its byte; a frame row's pattern has the first wire byte in bits
31:24 (the table's note: "bytes in wire order, most significant bit of each byte first"), and the data and `CRC16`
bytes that the pattern leaves out are zero. -/
def tableBytes (nbits w : Nat) : List Byte :=
  if nbits = 8 then [BitVec.ofNat 8 w]
  else if nbits = 32 then
    let size : Byte := BitVec.ofNat 8 (w / 2 ^ 8)
    [BitVec.ofNat 8 (w / 2 ^ 24), BitVec.ofNat 8 (w / 2 ^ 16), size, BitVec.ofNat 8 w] ++
      (if size = 0 then [] else List.replicate (size.toNat + 2) 0)
  else []

/-- The instruction the decoder reads from a word of `spec/opcode_table.json`. -/
def decodeTableWord (nbits w : Nat) : Option Instr :=
  match decode (tableCtx (BitVec.ofNat 8 w)) (tableBytes nbits w) with
  | .instr i => some i
  | .rejected _ => none

end Sys2Proof
end

