-- ==== Sys2Proof/Machine/Crc.lean ====
section
/-! DEFINITION. The CRC engine (`spec/40_crc.md`): the two step functions and their folds. -/

namespace Sys2Proof.Machine

/-- One bit of the default CRC-16: shift left, and exclusive-or `0x1021` when bit 15 was set (R125). -/
def crc16Bit (acc : Word16) : Word16 := if acc.msb then (acc <<< 1) ^^^ 0x1021 else acc <<< 1

/-- `n` bits of the default CRC-16. -/
def crc16Bits : Nat → Word16 → Word16
  | 0, acc => acc
  | n + 1, acc => crc16Bits n (crc16Bit acc)

/-- The default `crc16_step`, CRC-16/CCITT-FALSE (R125; log 4). -/
def crc16Ccitt (b : Byte) (acc : Word16) : Word16 := crc16Bits 8 (acc ^^^ (b.zeroExtend 16 <<< 8))

/-- One bit of the reference CRC-8: shift left, and exclusive-or `0x07` when bit 7 was set (R126). -/
def crc8Bit (acc : Byte) : Byte := if acc.msb then (acc <<< 1) ^^^ 0x07 else acc <<< 1

/-- `n` bits of the reference CRC-8. -/
def crc8Bits : Nat → Byte → Byte
  | 0, acc => acc
  | n + 1, acc => crc8Bits n (crc8Bit acc)

/-- The reference `crc8_step` of the spec's numeric vectors, no claim about the hardware (R126; log 3). -/
def crc8Ref (b acc : Byte) : Byte := crc8Bits 8 (acc ^^^ b)

/-- `crc8_step(b, acc)` of a configuration (R120). -/
def crc8Step (c : Cfg) (b acc : Byte) : Byte :=
  match c.crc8 with
  | .hardware => Config.crc8Hardware b acc
  | .reference => crc8Ref b acc

/-- `crc16_step(b, acc)` of a configuration (R121). -/
def crc16Step (c : Cfg) (b : Byte) (acc : Word16) : Word16 :=
  match c.crc16 with
  | .ccitt => crc16Ccitt b acc
  | .hardware => Config.crc16Hardware b acc

/-- The fold `c8` of R123, from `0x00`. -/
def crc8Fold (c : Cfg) (bs : List Byte) : Byte := bs.foldl (fun acc b => crc8Step c b acc) 0x00

/-- The fold `c16` of R123, from `0xFFFF`. -/
def crc16Fold (c : Cfg) (bs : List Byte) : Word16 := bs.foldl (fun acc b => crc16Step c b acc) 0xFFFF

end Sys2Proof.Machine
end

