-- ==== Sys2Proof/Machine/State.lean ====
section
/-! DEFINITION. The state of the block (`spec/10_state.md`) as plain data, what a step can stop with, and the state
after reset (R300). -/

namespace Sys2Proof.Machine

/-- A byte memory: (index, byte) pairs with strictly rising indices. An unlisted index has no value: nothing has
written it since reset (`10_state.md` section 9; log 7). -/
abbrev Mem := List Host.Cell

/-- The byte memories of R60. -/
inductive Space where
  | rxbuf (p : PortId)
  | txbuf (p : PortId)
  deriving DecidableEq, Repr

/-- Why the machine stops with a fault. Nothing in the block faults (R274); these mark a use of the machine that
the rules never make. -/
inductive Fault where
  /-- Raised by a read of a byte slot that nothing has written since reset (U5, `10_state.md` section 9). Safe. -/
  | unwrittenByte (space : Space) (index : Nat)
  /-- Raised by an access at an index the memory does not have (R60, R61, R142). Safe. -/
  | noSuchIndex (space : Space) (index : Nat)
  deriving DecidableEq, Repr

/-- Why an instruction has no meaning in a state. -/
inductive Refusal where
  /-- Raised by `exec`'s arm of an instruction that has no meaning yet. Safe. -/
  | notModelled (mnemonic : String)
  /-- Raised by a provisional write, a commit, a discard, a release or a generator call of an agent that does not
  hold the ring's lock (R133, R145, R147, R160). Safe. -/
  | notLockHolder
  /-- Raised by a turn of an agent that has an operation of another agent to execute, and by a read of the cursors or
  of committed bytes by an agent that R285 does not let read them (R285, U4; log 14). Safe. -/
  | notOwner
  /-- Raised by a read of a run with a slot that holds no committed byte, which R285 lets no agent read (R142;
  log 34). Safe. -/
  | notCommitted
  /-- Raised by an advance of an agent other than the port's drain task (R143, R147). Safe. -/
  | notDrainTask
  /-- Raised by an advance by 0 or by more than `used` (R143, R147). Safe. -/
  | badAdvance
  /-- Raised by a decoder operation on a port without receiver registers (R20, R255; log 15). Safe. -/
  | noReceiver
  /-- Raised by a ring operation on a port without a transmit buffer (R36; log 15). Safe. -/
  | noBuffer
  /-- Raised by a drain operation on a port without a drain task (R41; log 15). Safe. -/
  | noDrain
  deriving DecidableEq, Repr

/-- The provisional count (R38). -/
inductive Prov where
  | count (n : Nat)
  | poison
  deriving DecidableEq, Repr

/-- What a generator call in progress holds (R38, R39): the provisional count and its two accumulators. -/
structure GenCall where
  prov : Prov
  crc8 : Byte
  crc16 : Word16
  deriving DecidableEq, Repr

/-- The ring's exclusive lock (R37). -/
inductive Lock where
  | free
  | held (owner : Agent)
  deriving DecidableEq, Repr

/-- The circular transmit buffer of a port (R34 to R38, R130). -/
structure Ring where
  /-- `CB_SIZE[p]` (R6). -/
  size : Nat
  /-- `TXBUF[p]` (R34, R62). -/
  buf : Mem
  /-- The write cursor (R35). -/
  head : Nat
  /-- The read cursor (R35). -/
  tail : Nat
  lock : Lock
  /-- The generator call in progress; `none` outside a call (R38, R39). -/
  call : Option GenCall
  deriving DecidableEq, Repr

/-- The receiver registers of a port, `ParserHolder` (R21 to R33). -/
structure Rx where
  /-- `rx.state` (R21). -/
  state : RxState
  /-- `rx.saved_state` (R22). -/
  saved : MidState
  /-- `rx.crc8` (R23). -/
  crc8 : Byte
  /-- `rx.crc16` (R24). -/
  crc16 : Word16
  /-- `rx.data_length` (R25). -/
  dataLength : Byte
  /-- `rx.data_count` (R26). -/
  dataCount : Nat
  /-- `rx.port` (R27). -/
  port : PortId
  /-- `rx.ack_requested` (R28). -/
  ackRequested : Bool
  /-- `rx.handler` (R29). -/
  handler : Option Handler
  /-- `rx.cmd_id` (R30). -/
  cmdId : BitVec 7
  /-- `rx.rx_success` (R31), below `2^CNT_W`. -/
  rxSuccess : Nat
  /-- `rx.rx_error` (R32), below `2^CNT_W`. -/
  rxError : Nat
  /-- `RXBUF[p]` (R33, R61). -/
  buf : Mem
  /-- The handler whose synchronous call has not returned yet (R190 step 2, R226). -/
  inHandler : Option Handler
  deriving DecidableEq, Repr

/-- The two control states of a drain task (R41). -/
inductive DrainState where
  | blocked
  | draining
  deriving DecidableEq, Repr

/-- The numbered line of the drain loop that comes next, with the loop's local values (R249). -/
inductive DrainLine where
  /-- Line 1: is the ring empty? -/
  | testEmpty
  /-- Line 2: is the transport active? -/
  | queryActive
  /-- Line 3: read the readable run. -/
  | readRun
  /-- Line 4: claim, send, release. -/
  | sendRun (bytes : List Byte)
  /-- Line 5: advance or abort, by the status of the send. -/
  | settle (bytes : List Byte) (success : Bool)
  deriving DecidableEq, Repr

/-- A port's drain task (R41). -/
structure Drain where
  state : DrainState
  line : DrainLine
  deriving DecidableEq, Repr

/-- An answer of `read_byte` (R288). -/
inductive RxAnswer where
  | byte (b : Byte)
  | timeout
  deriving DecidableEq, Repr

/-- A reply request of a handler: `generate_and_send(cmd, port, data)` (R226). -/
structure Reply where
  cmd : Byte
  data : List Byte
  port : PortId
  deriving DecidableEq, Repr

/-- The answers a port's environment will give, oldest first: plain data instead of oracles (R11, R45; log 9). An
operation that needs an answer and finds none waits. -/
structure Env where
  input : List RxAnswer
  active : List Bool
  sends : List Bool
  handlerReturns : List (List Reply)
  deriving DecidableEq, Repr

/-- The calls a port made on the transport boundary (R288), with the opaque timeout tokens of R12. -/
inductive BoundaryCall where
  | readByte (timeout : Nat)
  | isActive
  | claim
  | send (bytes : List Byte) (timeout : Nat)
  | release
  deriving DecidableEq, Repr

/-- The observation events (R14). -/
inductive Event where
  | delivered (p : PortId) (id : BitVec 7) (ack : Bool) (data : List Byte)
  | handlerCall (p : PortId) (id : BitVec 7) (h : Handler) (data : List Byte)
  | rxError (p : PortId) (cause : RxErrorCause)
  | abandoned (p : PortId)
  | genOk (p : PortId) (cmd : Byte) (n : Nat)
  | genFail (p : PortId) (cmd : Byte) (n : Nat) (cause : CapacityCause)
  | signal (p : PortId)
  | txBytes (p : PortId) (bytes : List Byte)
  | drainAbort (p : PortId) (cause : DrainCause)
  deriving DecidableEq, Repr

/-- A port record (R20), with what the build fixed of it and what was observed of it. -/
structure Port where
  rx : Option Rx
  tx : Option Ring
  /-- The latched "start transmission" signal (R40). -/
  pending : Bool
  drain : Option Drain
  env : Env
  rxTimeout : Nat
  txTimeout : Nat
  /-- The event trace (R14), oldest first: an observation device, not hardware state (R45). -/
  trace : List Event
  /-- The boundary calls made, oldest first: an observation device. -/
  calls : List BoundaryCall
  deriving DecidableEq, Repr

/-- The value an operation returned to its caller. -/
inductive Ret where
  | nothing
  | bool (b : Bool)
  | byte (b : Byte)
  | word (w : Word16)
  | nat (n : Nat)
  | prov (v : Prov)
  | run (start len : Nat)
  | bytes (bs : List Byte)
  | handler (h : Option Handler)
  | generator (g : Option Generator)
  deriving DecidableEq, Repr

/-- The model's own record of an agent: the operations it has still to execute, first first, and the value its last
operation returned (log 12, log 13). -/
structure Ctx where
  todo : List Instr
  ret : Ret
  deriving DecidableEq, Repr

/-- The state of the block. -/
structure State where
  /-- The configuration record (`00_scope.md` section 3); no step writes it. -/
  cfg : Cfg
  /-- `Port[0 .. N_PORTS−1]` (R20). -/
  ports : List Port
  /-- The agents' records; an agent that is not listed has nothing to do and has returned nothing. -/
  ctxs : List (Agent × Ctx)
  /-- The schedule: whose turn comes next (R45). -/
  sched : List Agent
  /-- How many device payloads were taken: the index of the next free value (log 11). -/
  freeIx : Nat
  deriving DecidableEq, Repr

/-- No answer is there yet. -/
def Env.quiet : Env := { input := [], active := [], sends := [], handlerReturns := [] }

/-- The receiver registers after initialisation of port `p` (R300). The registers R300 leaves unspecified hold the
values log 5 names. -/
def Rx.reset (p : PortId) : Rx where
  state := .waitSync
  saved := .rxSize
  crc8 := 0
  crc16 := 0
  dataLength := 0
  dataCount := 0
  port := p
  ackRequested := false
  handler := none
  cmdId := 0
  rxSuccess := 0
  rxError := 0
  buf := []
  inHandler := none

/-- An empty, unlocked ring of `n` slots (R300). -/
def Ring.reset (n : Nat) : Ring where
  size := n
  buf := []
  head := 0
  tail := 0
  lock := .free
  call := none

/-- A drain task after reset: blocked (R300). -/
def Drain.reset : Drain := { state := .blocked, line := .testEmpty }

/-- The record of port `p` after initialisation (R300). -/
def Port.reset (p : PortId) (c : PortCfg) : Port where
  rx := if c.hasRx then some (Rx.reset p) else none
  tx := c.cbSize.map Ring.reset
  pending := false
  drain := if c.hasDrain then some Drain.reset else none
  env := Env.quiet
  rxTimeout := c.rxTimeout
  txTimeout := c.txTimeout
  trace := []
  calls := []

/-- The state after initialisation of every port of a build (R300). -/
def State.resetOf (b : Build) : State where
  cfg := b.cfg
  ports := b.ports.mapIdx Port.reset
  ctxs := []
  sched := []
  freeIx := 0

/-- The machine right after reset, in the default build (log 2). -/
def State.reset : State := State.resetOf Config.build

end Sys2Proof.Machine
end

