-- ==== Sys2Proof/Machine/Ops.lean ====
section
/-! DEFINITION. The named operations over memories, port records and agents' records, and the taking of a framing
error, the machine's one exception (`spec/60_exceptions.md`). -/

namespace Sys2Proof.Machine

/-- The outcome of an instruction. -/
abbrev Result := Host.Outcome State Fault Refusal

/-! ### Byte memories (R60, R67) -/

/-- The byte at an index; `none` for an index nothing has written. -/
def Mem.read : Mem → Nat → Option Byte
  | [], _ => none
  | (k, v) :: m, i => if k = i then some v else Mem.read m i

/-- Write one byte, keeping the indices strictly rising. -/
def Mem.write : Mem → Nat → Byte → Mem
  | [], i, b => [(i, b)]
  | (k, v) :: m, i, b =>
    if i < k then (i, b) :: (k, v) :: m
    else if i = k then (i, b) :: m
    else (k, v) :: Mem.write m i b

/-- The canonical form: indices strictly rising. -/
def Mem.wf : Mem → Bool
  | [] => true
  | [_] => true
  | (k, _) :: (l, w) :: m => decide (k < l) && Mem.wf ((l, w) :: m)

/-- `MemRead(space, i, 1)` in a memory of `size` bytes: an index the memory does not have and a byte that nothing
has written fault. -/
def Mem.load (sp : Space) (size : Nat) (m : Mem) (i : Nat) : Except Fault Byte :=
  if i < size then
    match m.read i with
    | some b => .ok b
    | none => .error (.unwrittenByte sp i)
  else .error (.noSuchIndex sp i)

/-- The `n` bytes from index `start` on, read one by one. -/
def Mem.loadRun (sp : Space) (size : Nat) (m : Mem) (start : Nat) : Nat → Except Fault (List Byte)
  | 0 => .ok []
  | n + 1 =>
    match m.load sp size start with
    | .error e => .error e
    | .ok b =>
      match Mem.loadRun sp size m (start + 1) n with
      | .error e => .error e
      | .ok bs => .ok (b :: bs)

/-! ### Port records (R20, R240) -/

/-- The record of a port; `none` for an identity that names no port. -/
def State.port? (s : State) (p : PortId) : Option Port := s.ports[p]?

/-- The receiver registers of a port. -/
def State.rx? (s : State) (p : PortId) : Option Rx := (s.port? p).bind Port.rx

/-- The transmit buffer of a port (R36). -/
def State.tx? (s : State) (p : PortId) : Option Ring := (s.port? p).bind Port.tx

/-- The drain task of a port (R41). -/
def State.drain? (s : State) (p : PortId) : Option Drain := (s.port? p).bind Port.drain

/-- Change one port record, if it is there. -/
def State.modifyPort (s : State) (p : PortId) (f : Port → Port) : State := { s with ports := s.ports.modify p f }

/-- Write a port's receiver registers. -/
def State.setRx (s : State) (p : PortId) (r : Rx) : State := s.modifyPort p fun P => { P with rx := some r }

/-- Write a port's transmit buffer. -/
def State.setTx (s : State) (p : PortId) (T : Ring) : State := s.modifyPort p fun P => { P with tx := some T }

/-- Write a port's drain task. -/
def State.setDrain (s : State) (p : PortId) (d : Drain) : State := s.modifyPort p fun P => { P with drain := some d }

/-- Write a port's `pending` bit (R40). -/
def State.setPending (s : State) (p : PortId) (v : Bool) : State := s.modifyPort p fun P => { P with pending := v }

/-- Replace the answers a port's environment will still give. -/
def State.setEnv (s : State) (p : PortId) (e : Env) : State := s.modifyPort p fun P => { P with env := e }

/-- `emit`: append events to a port's trace (R14). -/
def State.emit (s : State) (p : PortId) (es : List Event) : State :=
  s.modifyPort p fun P => { P with trace := P.trace ++ es }

/-- Record calls on a port's transport boundary (R288). -/
def State.boundary (s : State) (p : PortId) (cs : List BoundaryCall) : State :=
  s.modifyPort p fun P => { P with calls := P.calls ++ cs }

/-! ### Agents' records (log 12, log 13) -/

/-- An agent that has nothing to do and has returned nothing. -/
def Ctx.idle : Ctx := { todo := [], ret := .nothing }

/-- The record of an agent. -/
def ctxOf : List (Agent × Ctx) → Agent → Ctx
  | [], _ => Ctx.idle
  | (b, c) :: l, a => if b = a then c else ctxOf l a

/-- Write the record of an agent. -/
def putCtx : List (Agent × Ctx) → Agent → Ctx → List (Agent × Ctx)
  | [], a, c => [(a, c)]
  | (b, d) :: l, a, c => if b = a then (a, c) :: l else (b, d) :: putCtx l a c

/-- The record of an agent in a state. -/
def State.ctx (s : State) (a : Agent) : Ctx := ctxOf s.ctxs a

/-- Write the record of an agent. -/
def State.setCtx (s : State) (a : Agent) (c : Ctx) : State := { s with ctxs := putCtx s.ctxs a c }

/-- The value an operation returns to its caller. -/
def State.setRet (s : State) (a : Agent) (v : Ret) : State := s.setCtx a { s.ctx a with ret := v }

/-- Replace what an agent has still to execute. -/
def State.setTodo (s : State) (a : Agent) (is : List Instr) : State := s.setCtx a { s.ctx a with todo := is }

/-- Put operations in front of what an agent has still to execute. -/
def State.pushWork (s : State) (a : Agent) : List Instr → State
  | [] => s
  | i :: is => s.setTodo a (i :: is ++ (s.ctx a).todo)

/-- An agent waits: the operation has no step now and stays the agent's next one (R132, R291; log 13). -/
def State.waitAt (s : State) (a : Agent) (i : Instr) : State := s.pushWork a [i]

/-! ### Units that may be absent (log 15) -/

/-- Continue with a port's transmit buffer. -/
def State.withRing (s : State) (p : PortId) (k : Ring → Result) : Result :=
  match s.tx? p with
  | some T => k T
  | none => .refused .noBuffer

/-- Continue with a port's drain task. -/
def State.withDrain (s : State) (p : PortId) (k : Drain → Result) : Result :=
  match s.drain? p with
  | some d => k d
  | none => .refused .noDrain

/-! ### The byte step's result, and taking a framing error -/

/-- What a decoder operation produces: the receiver registers, the events, and the calls that DecodeTask(p) makes
next (the ACK, R197; the byte steps that follow, R110). -/
structure RxOut where
  rx : Rx
  events : List Event
  work : List Instr
  deriving DecidableEq, Repr

/-- A result that only writes registers. -/
def RxOut.regs (r : Rx) : RxOut := { rx := r, events := [], work := [] }

/-- `rx_fail(R, cause)`: taking a framing error (R189, R270, R280). The counter moves by one modulo `2^CNT_W`, the
decoder goes to `WaitSync`; nothing is saved and nothing else changes. The return is implicit (R281). -/
def takeFramingError (c : Cfg) (cause : RxErrorCause) (r : Rx) : RxOut where
  rx := { r with rxError := (r.rxError + 1) % 2 ^ c.cntW, state := .waitSync }
  events := [.rxError r.port cause]
  work := []

/-- Run a decoder operation on a port's receiver registers: a fault stops the machine, a result is written, its
events are emitted and its calls become DecodeTask(p)'s next work. No other port record is touched (R202). -/
def State.decoder (s : State) (p : PortId) (f : Cfg → Rx → Except Fault RxOut) : Result :=
  match s.rx? p with
  | none => .refused .noReceiver
  | some r =>
    match f s.cfg r with
    | .error e => .fault e
    | .ok o => .next (((s.setRx p o.rx).emit p o.events).pushWork (.decode p) o.work)

end Sys2Proof.Machine
end

