-- ==== Sys2Proof/Machine/Lookup.lean ====
section
/-! DEFINITION. The command dispatch tables (`spec/44_dispatch.md`): the single bounds-checked query point. -/

namespace Sys2Proof.Machine

/-- The bounds-checked query of a table of `TABLE_LEN` entries (R221, R224): id 0 and every id out of bounds give
no entry, without a read. -/
def tableQuery {α : Type} (len : Nat) (table : List (Option α)) (id : Nat) : Option α :=
  if id = 0 then none else if id < len then (table[id]?).join else none

/-- `lookup_dec(id)` (R221). -/
def lookupDec (c : Cfg) (id : Nat) : Option Handler := tableQuery c.tableLen c.decTable id

/-- `lookup_gen(id)` (R221). -/
def lookupGen (c : Cfg) (id : Nat) : Option Generator := tableQuery c.tableLen c.genTable id

/-- `lookup_dec` as an operation (R221). -/
def execLookupDec (who : Agent) (id : Nat) (s : State) : Result := .next (s.setRet who (.handler (lookupDec s.cfg id)))

/-- `lookup_gen` as an operation (R221). -/
def execLookupGen (who : Agent) (id : Nat) (s : State) : Result :=
  .next (s.setRet who (.generator (lookupGen s.cfg id)))

end Sys2Proof.Machine
end

