-- ==== Sys2Proof/Machine/Decoder.lean ====
section
/-! DEFINITION. The frame decoder (`spec/43_decoder.md`): the handlers of the eight states on a port's receiver
registers, the byte step, and the instructions of the decoder. -/

namespace Sys2Proof.Machine

/-- The result of a decoder operation. -/
abbrev RxResult := Except Fault RxOut

/-- `reseed(R)` (R184, R122). -/
def reseed (c : Cfg) (r : Rx) : Rx :=
  { r with crc8 := crc8Step c c.sync 0x00, crc16 := crc16Step c c.sync 0xFFFF, dataCount := 0 }

/-- `complete(R)` (R190): count, deliver, call the cached handler, then the ACK if asked, then `WaitSync`. The call's
replies and the ACK are DecodeTask(p)'s next work (R72; log 8, log 16). -/
def complete (c : Cfg) (r : Rx) : RxResult :=
  match r.buf.loadRun (.rxbuf r.port) c.rxDataCap 0 r.dataLength.toNat with
  | .error e => .error e
  | .ok data => .ok {
      rx := { r with rxSuccess := (r.rxSuccess + 1) % 2 ^ c.cntW, state := .waitSync, inHandler := r.handler }
      events := .delivered r.port r.cmdId r.ackRequested data ::
        (match r.handler with
         | some h => [.handlerCall r.port r.cmdId h data]
         | none => [])
      work := if r.ackRequested then [.rxSendAck r.port] else [] }

/-- The handler of `WaitSync` (R183). -/
def onWaitSync (c : Cfg) (b : Byte) (r : Rx) : RxResult :=
  if b = c.sync then .ok (.regs { reseed c r with state := .rxCmd }) else .ok (.regs r)

/-- The handler of `RxCmd` (R185, R186). -/
def onRxCmd (c : Cfg) (b : Byte) (r : Rx) : RxResult :=
  if cmdIdOf b = 0 then .ok (takeFramingError c .invalidCmd r)
  else .ok (.regs { r with
    crc8 := crc8Step c b r.crc8
    crc16 := crc16Step c b r.crc16
    cmdId := cmdIdOf b
    handler := lookupDec c (cmdIdOf b).toNat
    ackRequested := cmdAckOf b
    state := .mid .rxSize })

/-- The handler of `RxSize` (R187). -/
def onRxSize (c : Cfg) (b : Byte) (r : Rx) : RxResult :=
  .ok (.regs { r with
    crc8 := crc8Step c b r.crc8
    crc16 := crc16Step c b r.crc16
    dataLength := b
    state := .mid .rxCrc8 })

/-- The handler of `RxCrc8` (R188). -/
def onRxCrc8 (c : Cfg) (b : Byte) (r : Rx) : RxResult :=
  if b ≠ r.crc8 then .ok (takeFramingError c .crc8Mismatch r)
  else if r.dataLength = 0 then complete c r
  else .ok (.regs { r with crc16 := crc16Step c b r.crc16, state := .mid .rxData })

/-- The handler of `RxData` (R191, R192): the overrun test comes before the store (R277). -/
def onRxData (c : Cfg) (b : Byte) (r : Rx) : RxResult :=
  if c.rxDataCap ≤ r.dataCount then .ok (takeFramingError c .rxOverrun r)
  else .ok (.regs { r with
    buf := r.buf.write r.dataCount b
    dataCount := r.dataCount + 1
    crc16 := crc16Step c b r.crc16
    state := if r.dataCount + 1 = r.dataLength.toNat then .mid .rxCrc16Hi else r.state })

/-- The handler of `RxCrc16Hi` (R193). -/
def onRxCrc16Hi (c : Cfg) (b : Byte) (r : Rx) : RxResult :=
  if b ≠ hiOctet r.crc16 then .ok (takeFramingError c .crc16HiMismatch r)
  else .ok (.regs { r with state := .mid .rxCrc16Lo })

/-- The handler of `RxCrc16Lo` (R194). -/
def onRxCrc16Lo (c : Cfg) (b : Byte) (r : Rx) : RxResult :=
  if b ≠ loOctet r.crc16 then .ok (takeFramingError c .crc16LoMismatch r) else complete c r

/-- `deliver(s, b)` to a mid-frame state's handler (R182). -/
def deliverMid (c : Cfg) (m : MidState) (b : Byte) (r : Rx) : RxResult :=
  match m with
  | .rxSize => onRxSize c b r
  | .rxCrc8 => onRxCrc8 c b r
  | .rxData => onRxData c b r
  | .rxCrc16Hi => onRxCrc16Hi c b r
  | .rxCrc16Lo => onRxCrc16Lo c b r

/-- A mid-frame `SYNC`: the state is remembered, nothing else changes (R181, first branch). -/
def onSyncMidframe (m : MidState) (r : Rx) : RxResult :=
  .ok (.regs { r with saved := m, state := .waitSyncOrEscapedByte })

/-- Escape confirmed: the remembered state is restored, then its handler gets one byte `SYNC` (R195). -/
def onEscapeConfirmed (c : Cfg) (r : Rx) : RxResult :=
  deliverMid c r.saved c.sync { r with state := .mid r.saved }

/-- The frame in progress is abandoned without an error, and `b` is the `CMD` byte of a new one (R196). -/
def onAbandonRestart (c : Cfg) (b : Byte) (r : Rx) : RxResult :=
  match onRxCmd c b { reseed c r with state := .rxCmd } with
  | .error e => .error e
  | .ok o => .ok { o with events := .abandoned r.port :: o.events }

/-- `rx_step(p, b)`: the entry dispatch on `SYNC`, then at most the handlers it names (R180, R181, R182). -/
def rxStep (c : Cfg) (b : Byte) (r : Rx) : RxResult :=
  match r.state with
  | .waitSync => onWaitSync c b r
  | .rxCmd => onRxCmd c b r
  | .mid m => if b = c.sync then onSyncMidframe m r else deliverMid c m b r
  | .waitSyncOrEscapedByte => if b = c.sync then onEscapeConfirmed c r else onAbandonRestart c b r

/-- The byte steps `rx(p, [b0, b1, …])` in order (R110). After a byte step that leaves DecodeTask(p) a call to make,
the remaining byte steps wait as its work behind that call (R190, R226; log 18). -/
def rxFeed (c : Cfg) : List Byte → Rx → RxResult
  | [], r => .ok (.regs r)
  | b :: bs, r =>
    match rxStep c b r with
    | .error e => .error e
    | .ok o =>
      if o.rx.inHandler = none ∧ o.work = [] then
        match rxFeed c bs o.rx with
        | .error e => .error e
        | .ok o' => .ok { o' with events := o.events ++ o'.events }
      else .ok { o with work := o.work ++ bs.map (.rxStep r.port) }

/-! ### The instructions -/

/-- The decoder byte step (R181). -/
def execRxStep (p : PortId) (b : Byte) (s : State) : Result := s.decoder p fun c r => rxStep c b r

/-- The byte step in state `WaitSync` (R183). -/
def execRxWaitSync (p : PortId) (b : Byte) (s : State) : Result := s.decoder p fun c r => onWaitSync c b r

/-- `reseed` (R184). -/
def execRxReseed (p : PortId) (s : State) : Result := s.decoder p fun c r => .ok (.regs (reseed c r))

/-- The byte step in state `RxCmd` (R185). -/
def execRxRxCmd (p : PortId) (b : Byte) (s : State) : Result := s.decoder p fun c r => onRxCmd c b r

/-- The byte step in state `RxSize` (R187). -/
def execRxRxSize (p : PortId) (b : Byte) (s : State) : Result := s.decoder p fun c r => onRxSize c b r

/-- The byte step in state `RxCrc8` (R188). -/
def execRxRxCrc8 (p : PortId) (b : Byte) (s : State) : Result := s.decoder p fun c r => onRxCrc8 c b r

/-- The error exit (R189). -/
def execRxFail (p : PortId) (cause : RxErrorCause) (s : State) : Result :=
  s.decoder p fun c r => .ok (takeFramingError c cause r)

/-- The success exit (R190). -/
def execRxComplete (p : PortId) (s : State) : Result := s.decoder p complete

/-- The byte step in state `RxData` (R191). -/
def execRxRxData (p : PortId) (b : Byte) (s : State) : Result := s.decoder p fun c r => onRxData c b r

/-- The byte step in state `RxCrc16Hi` (R193). -/
def execRxRxCrc16Hi (p : PortId) (b : Byte) (s : State) : Result := s.decoder p fun c r => onRxCrc16Hi c b r

/-- The byte step in state `RxCrc16Lo` (R194). -/
def execRxRxCrc16Lo (p : PortId) (b : Byte) (s : State) : Result := s.decoder p fun c r => onRxCrc16Lo c b r

/-- The byte step in state `WaitSyncOrEscapedByte` on `SYNC` (R195). -/
def execRxEscapeConfirmed (p : PortId) (s : State) : Result := s.decoder p onEscapeConfirmed

/-- The byte step in state `WaitSyncOrEscapedByte` on another byte (R196). -/
def execRxAbandonRestart (p : PortId) (b : Byte) (s : State) : Result := s.decoder p fun c r => onAbandonRestart c b r

end Sys2Proof.Machine
end

