-- ==== Sys2Proof/Machine/CmdBytes.lean ====
section
/-! DEFINITION. The 128 `CMD` bytes (`spec/30_encoding.md` section 4), one meaning per command id. What a command id
does to the receiver is the byte step's business: id 0 is a framing error (R106), every other id is accepted (R185),
listed or not (R107), and the tables decide what follows (R222). -/

namespace Sys2Proof.Machine

/-- The `CMD` byte of command id `id` arrives on port `p`: a byte step with that byte (R92, R180, R185). -/
def cmdArrives (id : BitVec 7) (p : PortId) (ack : Bool) (s : State) : Result :=
  s.decoder p fun c r => rxStep c (cmdByte ack id) r

/-- `NONE` (R106). -/
def execCmdNone (p : PortId) (ack : Bool) (s : State) : Result := cmdArrives 0 p ack s

/-- `ACK` (R105). -/
def execCmdAck (p : PortId) (ack : Bool) (s : State) : Result := cmdArrives 1 p ack s

/-- `PING` (R105). -/
def execCmdPing (p : PortId) (ack : Bool) (s : State) : Result := cmdArrives 2 p ack s

/-- `DEBUGMESSAGE` (R105). -/
def execCmdDebugMessage (p : PortId) (ack : Bool) (s : State) : Result := cmdArrives 3 p ack s

/-- `GETRUNNINGMODE` (R105). -/
def execCmdGetRunningMode (p : PortId) (ack : Bool) (s : State) : Result := cmdArrives 4 p ack s

/-- `UNLISTED_5` (R107). -/
def execCmdUnlisted5 (p : PortId) (ack : Bool) (s : State) : Result := cmdArrives 5 p ack s

/-- `UNLISTED_6` (R107). -/
def execCmdUnlisted6 (p : PortId) (ack : Bool) (s : State) : Result := cmdArrives 6 p ack s

/-- `UNLISTED_7` (R107). -/
def execCmdUnlisted7 (p : PortId) (ack : Bool) (s : State) : Result := cmdArrives 7 p ack s

/-- `UNLISTED_8` (R107). -/
def execCmdUnlisted8 (p : PortId) (ack : Bool) (s : State) : Result := cmdArrives 8 p ack s

/-- `UNLISTED_9` (R107). -/
def execCmdUnlisted9 (p : PortId) (ack : Bool) (s : State) : Result := cmdArrives 9 p ack s

/-- `FWUPDATE_10` (R105). -/
def execCmdFwUpdate10 (p : PortId) (ack : Bool) (s : State) : Result := cmdArrives 10 p ack s

/-- `FWUPDATE_11` (R105). -/
def execCmdFwUpdate11 (p : PortId) (ack : Bool) (s : State) : Result := cmdArrives 11 p ack s

/-- `FWUPDATE_12` (R105). -/
def execCmdFwUpdate12 (p : PortId) (ack : Bool) (s : State) : Result := cmdArrives 12 p ack s

/-- `FWUPDATE_13` (R105). -/
def execCmdFwUpdate13 (p : PortId) (ack : Bool) (s : State) : Result := cmdArrives 13 p ack s

/-- `FWUPDATE_14` (R105). -/
def execCmdFwUpdate14 (p : PortId) (ack : Bool) (s : State) : Result := cmdArrives 14 p ack s

/-- `FWUPDATE_15` (R105). -/
def execCmdFwUpdate15 (p : PortId) (ack : Bool) (s : State) : Result := cmdArrives 15 p ack s

/-- `FWUPDATE_16` (R105). -/
def execCmdFwUpdate16 (p : PortId) (ack : Bool) (s : State) : Result := cmdArrives 16 p ack s

/-- `GETDEVICEINFO` (R105). -/
def execCmdGetDeviceInfo (p : PortId) (ack : Bool) (s : State) : Result := cmdArrives 17 p ack s

/-- `UNLISTED_18` (R107). -/
def execCmdUnlisted18 (p : PortId) (ack : Bool) (s : State) : Result := cmdArrives 18 p ack s

/-- `UNLISTED_19` (R107). -/
def execCmdUnlisted19 (p : PortId) (ack : Bool) (s : State) : Result := cmdArrives 19 p ack s

/-- `UNLISTED_20` (R107). -/
def execCmdUnlisted20 (p : PortId) (ack : Bool) (s : State) : Result := cmdArrives 20 p ack s

/-- `UNLISTED_21` (R107). -/
def execCmdUnlisted21 (p : PortId) (ack : Bool) (s : State) : Result := cmdArrives 21 p ack s

/-- `UNLISTED_22` (R107). -/
def execCmdUnlisted22 (p : PortId) (ack : Bool) (s : State) : Result := cmdArrives 22 p ack s

/-- `UNLISTED_23` (R107). -/
def execCmdUnlisted23 (p : PortId) (ack : Bool) (s : State) : Result := cmdArrives 23 p ack s

/-- `UNLISTED_24` (R107). -/
def execCmdUnlisted24 (p : PortId) (ack : Bool) (s : State) : Result := cmdArrives 24 p ack s

/-- `UNLISTED_25` (R107). -/
def execCmdUnlisted25 (p : PortId) (ack : Bool) (s : State) : Result := cmdArrives 25 p ack s

/-- `UNLISTED_26` (R107). -/
def execCmdUnlisted26 (p : PortId) (ack : Bool) (s : State) : Result := cmdArrives 26 p ack s

/-- `UNLISTED_27` (R107). -/
def execCmdUnlisted27 (p : PortId) (ack : Bool) (s : State) : Result := cmdArrives 27 p ack s

/-- `UNLISTED_28` (R107). -/
def execCmdUnlisted28 (p : PortId) (ack : Bool) (s : State) : Result := cmdArrives 28 p ack s

/-- `UNLISTED_29` (R107). -/
def execCmdUnlisted29 (p : PortId) (ack : Bool) (s : State) : Result := cmdArrives 29 p ack s

/-- `UNLISTED_30` (R107). -/
def execCmdUnlisted30 (p : PortId) (ack : Bool) (s : State) : Result := cmdArrives 30 p ack s

/-- `UNLISTED_31` (R107). -/
def execCmdUnlisted31 (p : PortId) (ack : Bool) (s : State) : Result := cmdArrives 31 p ack s

/-- `UNLISTED_32` (R107). -/
def execCmdUnlisted32 (p : PortId) (ack : Bool) (s : State) : Result := cmdArrives 32 p ack s

/-- `UNLISTED_33` (R107). -/
def execCmdUnlisted33 (p : PortId) (ack : Bool) (s : State) : Result := cmdArrives 33 p ack s

/-- `UNLISTED_34` (R107). -/
def execCmdUnlisted34 (p : PortId) (ack : Bool) (s : State) : Result := cmdArrives 34 p ack s

/-- `UNLISTED_35` (R107). -/
def execCmdUnlisted35 (p : PortId) (ack : Bool) (s : State) : Result := cmdArrives 35 p ack s

/-- `UNLISTED_36` (R107). -/
def execCmdUnlisted36 (p : PortId) (ack : Bool) (s : State) : Result := cmdArrives 36 p ack s

/-- `UNLISTED_37` (R107). -/
def execCmdUnlisted37 (p : PortId) (ack : Bool) (s : State) : Result := cmdArrives 37 p ack s

/-- `UNLISTED_38` (R107). -/
def execCmdUnlisted38 (p : PortId) (ack : Bool) (s : State) : Result := cmdArrives 38 p ack s

/-- `UNLISTED_39` (R107). -/
def execCmdUnlisted39 (p : PortId) (ack : Bool) (s : State) : Result := cmdArrives 39 p ack s

/-- `UNLISTED_40` (R107). -/
def execCmdUnlisted40 (p : PortId) (ack : Bool) (s : State) : Result := cmdArrives 40 p ack s

/-- `UNLISTED_41` (R107). -/
def execCmdUnlisted41 (p : PortId) (ack : Bool) (s : State) : Result := cmdArrives 41 p ack s

/-- `UNLISTED_42` (R107). -/
def execCmdUnlisted42 (p : PortId) (ack : Bool) (s : State) : Result := cmdArrives 42 p ack s

/-- `UNLISTED_43` (R107). -/
def execCmdUnlisted43 (p : PortId) (ack : Bool) (s : State) : Result := cmdArrives 43 p ack s

/-- `UNLISTED_44` (R107). -/
def execCmdUnlisted44 (p : PortId) (ack : Bool) (s : State) : Result := cmdArrives 44 p ack s

/-- `UNLISTED_45` (R107). -/
def execCmdUnlisted45 (p : PortId) (ack : Bool) (s : State) : Result := cmdArrives 45 p ack s

/-- `UNLISTED_46` (R107). -/
def execCmdUnlisted46 (p : PortId) (ack : Bool) (s : State) : Result := cmdArrives 46 p ack s

/-- `UNLISTED_47` (R107). -/
def execCmdUnlisted47 (p : PortId) (ack : Bool) (s : State) : Result := cmdArrives 47 p ack s

/-- `UNLISTED_48` (R107). -/
def execCmdUnlisted48 (p : PortId) (ack : Bool) (s : State) : Result := cmdArrives 48 p ack s

/-- `UNLISTED_49` (R107). -/
def execCmdUnlisted49 (p : PortId) (ack : Bool) (s : State) : Result := cmdArrives 49 p ack s

/-- `UNLISTED_50` (R107). -/
def execCmdUnlisted50 (p : PortId) (ack : Bool) (s : State) : Result := cmdArrives 50 p ack s

/-- `UNLISTED_51` (R107). -/
def execCmdUnlisted51 (p : PortId) (ack : Bool) (s : State) : Result := cmdArrives 51 p ack s

/-- `UNLISTED_52` (R107). -/
def execCmdUnlisted52 (p : PortId) (ack : Bool) (s : State) : Result := cmdArrives 52 p ack s

/-- `UNLISTED_53` (R107). -/
def execCmdUnlisted53 (p : PortId) (ack : Bool) (s : State) : Result := cmdArrives 53 p ack s

/-- `UNLISTED_54` (R107). -/
def execCmdUnlisted54 (p : PortId) (ack : Bool) (s : State) : Result := cmdArrives 54 p ack s

/-- `UNLISTED_55` (R107). -/
def execCmdUnlisted55 (p : PortId) (ack : Bool) (s : State) : Result := cmdArrives 55 p ack s

/-- `UNLISTED_56` (R107). -/
def execCmdUnlisted56 (p : PortId) (ack : Bool) (s : State) : Result := cmdArrives 56 p ack s

/-- `UNLISTED_57` (R107). -/
def execCmdUnlisted57 (p : PortId) (ack : Bool) (s : State) : Result := cmdArrives 57 p ack s

/-- `UNLISTED_58` (R107). -/
def execCmdUnlisted58 (p : PortId) (ack : Bool) (s : State) : Result := cmdArrives 58 p ack s

/-- `UNLISTED_59` (R107). -/
def execCmdUnlisted59 (p : PortId) (ack : Bool) (s : State) : Result := cmdArrives 59 p ack s

/-- `UNLISTED_60` (R107). -/
def execCmdUnlisted60 (p : PortId) (ack : Bool) (s : State) : Result := cmdArrives 60 p ack s

/-- `UNLISTED_61` (R107). -/
def execCmdUnlisted61 (p : PortId) (ack : Bool) (s : State) : Result := cmdArrives 61 p ack s

/-- `UNLISTED_62` (R107). -/
def execCmdUnlisted62 (p : PortId) (ack : Bool) (s : State) : Result := cmdArrives 62 p ack s

/-- `UNLISTED_63` (R107). -/
def execCmdUnlisted63 (p : PortId) (ack : Bool) (s : State) : Result := cmdArrives 63 p ack s

/-- `UNLISTED_64` (R107). -/
def execCmdUnlisted64 (p : PortId) (ack : Bool) (s : State) : Result := cmdArrives 64 p ack s

/-- `UNLISTED_65` (R107). -/
def execCmdUnlisted65 (p : PortId) (ack : Bool) (s : State) : Result := cmdArrives 65 p ack s

/-- `UNLISTED_66` (R107). -/
def execCmdUnlisted66 (p : PortId) (ack : Bool) (s : State) : Result := cmdArrives 66 p ack s

/-- `UNLISTED_67` (R107). -/
def execCmdUnlisted67 (p : PortId) (ack : Bool) (s : State) : Result := cmdArrives 67 p ack s

/-- `UNLISTED_68` (R107). -/
def execCmdUnlisted68 (p : PortId) (ack : Bool) (s : State) : Result := cmdArrives 68 p ack s

/-- `UNLISTED_69` (R107). -/
def execCmdUnlisted69 (p : PortId) (ack : Bool) (s : State) : Result := cmdArrives 69 p ack s

/-- `UNLISTED_70` (R107). -/
def execCmdUnlisted70 (p : PortId) (ack : Bool) (s : State) : Result := cmdArrives 70 p ack s

/-- `UNLISTED_71` (R107). -/
def execCmdUnlisted71 (p : PortId) (ack : Bool) (s : State) : Result := cmdArrives 71 p ack s

/-- `UNLISTED_72` (R107). -/
def execCmdUnlisted72 (p : PortId) (ack : Bool) (s : State) : Result := cmdArrives 72 p ack s

/-- `UNLISTED_73` (R107). -/
def execCmdUnlisted73 (p : PortId) (ack : Bool) (s : State) : Result := cmdArrives 73 p ack s

/-- `UNLISTED_74` (R107). -/
def execCmdUnlisted74 (p : PortId) (ack : Bool) (s : State) : Result := cmdArrives 74 p ack s

/-- `UNLISTED_75` (R107). -/
def execCmdUnlisted75 (p : PortId) (ack : Bool) (s : State) : Result := cmdArrives 75 p ack s

/-- `UNLISTED_76` (R107). -/
def execCmdUnlisted76 (p : PortId) (ack : Bool) (s : State) : Result := cmdArrives 76 p ack s

/-- `UNLISTED_77` (R107). -/
def execCmdUnlisted77 (p : PortId) (ack : Bool) (s : State) : Result := cmdArrives 77 p ack s

/-- `UNLISTED_78` (R107). -/
def execCmdUnlisted78 (p : PortId) (ack : Bool) (s : State) : Result := cmdArrives 78 p ack s

/-- `UNLISTED_79` (R107). -/
def execCmdUnlisted79 (p : PortId) (ack : Bool) (s : State) : Result := cmdArrives 79 p ack s

/-- `UNLISTED_80` (R107). -/
def execCmdUnlisted80 (p : PortId) (ack : Bool) (s : State) : Result := cmdArrives 80 p ack s

/-- `UNLISTED_81` (R107). -/
def execCmdUnlisted81 (p : PortId) (ack : Bool) (s : State) : Result := cmdArrives 81 p ack s

/-- `UNLISTED_82` (R107). -/
def execCmdUnlisted82 (p : PortId) (ack : Bool) (s : State) : Result := cmdArrives 82 p ack s

/-- `UNLISTED_83` (R107). -/
def execCmdUnlisted83 (p : PortId) (ack : Bool) (s : State) : Result := cmdArrives 83 p ack s

/-- `UNLISTED_84` (R107). -/
def execCmdUnlisted84 (p : PortId) (ack : Bool) (s : State) : Result := cmdArrives 84 p ack s

/-- `UNLISTED_85` (R107). -/
def execCmdUnlisted85 (p : PortId) (ack : Bool) (s : State) : Result := cmdArrives 85 p ack s

/-- `UNLISTED_86` (R107). -/
def execCmdUnlisted86 (p : PortId) (ack : Bool) (s : State) : Result := cmdArrives 86 p ack s

/-- `UNLISTED_87` (R107). -/
def execCmdUnlisted87 (p : PortId) (ack : Bool) (s : State) : Result := cmdArrives 87 p ack s

/-- `UNLISTED_88` (R107). -/
def execCmdUnlisted88 (p : PortId) (ack : Bool) (s : State) : Result := cmdArrives 88 p ack s

/-- `UNLISTED_89` (R107). -/
def execCmdUnlisted89 (p : PortId) (ack : Bool) (s : State) : Result := cmdArrives 89 p ack s

/-- `UNLISTED_90` (R107). -/
def execCmdUnlisted90 (p : PortId) (ack : Bool) (s : State) : Result := cmdArrives 90 p ack s

/-- `UNLISTED_91` (R107). -/
def execCmdUnlisted91 (p : PortId) (ack : Bool) (s : State) : Result := cmdArrives 91 p ack s

/-- `UNLISTED_92` (R107). -/
def execCmdUnlisted92 (p : PortId) (ack : Bool) (s : State) : Result := cmdArrives 92 p ack s

/-- `UNLISTED_93` (R107). -/
def execCmdUnlisted93 (p : PortId) (ack : Bool) (s : State) : Result := cmdArrives 93 p ack s

/-- `UNLISTED_94` (R107). -/
def execCmdUnlisted94 (p : PortId) (ack : Bool) (s : State) : Result := cmdArrives 94 p ack s

/-- `UNLISTED_95` (R107). -/
def execCmdUnlisted95 (p : PortId) (ack : Bool) (s : State) : Result := cmdArrives 95 p ack s

/-- `UNLISTED_96` (R107). -/
def execCmdUnlisted96 (p : PortId) (ack : Bool) (s : State) : Result := cmdArrives 96 p ack s

/-- `UNLISTED_97` (R107). -/
def execCmdUnlisted97 (p : PortId) (ack : Bool) (s : State) : Result := cmdArrives 97 p ack s

/-- `UNLISTED_98` (R107). -/
def execCmdUnlisted98 (p : PortId) (ack : Bool) (s : State) : Result := cmdArrives 98 p ack s

/-- `UNLISTED_99` (R107). -/
def execCmdUnlisted99 (p : PortId) (ack : Bool) (s : State) : Result := cmdArrives 99 p ack s

/-- `UNLISTED_100` (R107). -/
def execCmdUnlisted100 (p : PortId) (ack : Bool) (s : State) : Result := cmdArrives 100 p ack s

/-- `UNLISTED_101` (R107). -/
def execCmdUnlisted101 (p : PortId) (ack : Bool) (s : State) : Result := cmdArrives 101 p ack s

/-- `UNLISTED_102` (R107). -/
def execCmdUnlisted102 (p : PortId) (ack : Bool) (s : State) : Result := cmdArrives 102 p ack s

/-- `UNLISTED_103` (R107). -/
def execCmdUnlisted103 (p : PortId) (ack : Bool) (s : State) : Result := cmdArrives 103 p ack s

/-- `UNLISTED_104` (R107). -/
def execCmdUnlisted104 (p : PortId) (ack : Bool) (s : State) : Result := cmdArrives 104 p ack s

/-- `UNLISTED_105` (R107). -/
def execCmdUnlisted105 (p : PortId) (ack : Bool) (s : State) : Result := cmdArrives 105 p ack s

/-- `UNLISTED_106` (R107). -/
def execCmdUnlisted106 (p : PortId) (ack : Bool) (s : State) : Result := cmdArrives 106 p ack s

/-- `UNLISTED_107` (R107). -/
def execCmdUnlisted107 (p : PortId) (ack : Bool) (s : State) : Result := cmdArrives 107 p ack s

/-- `UNLISTED_108` (R107). -/
def execCmdUnlisted108 (p : PortId) (ack : Bool) (s : State) : Result := cmdArrives 108 p ack s

/-- `UNLISTED_109` (R107). -/
def execCmdUnlisted109 (p : PortId) (ack : Bool) (s : State) : Result := cmdArrives 109 p ack s

/-- `UNLISTED_110` (R107). -/
def execCmdUnlisted110 (p : PortId) (ack : Bool) (s : State) : Result := cmdArrives 110 p ack s

/-- `UNLISTED_111` (R107). -/
def execCmdUnlisted111 (p : PortId) (ack : Bool) (s : State) : Result := cmdArrives 111 p ack s

/-- `UNLISTED_112` (R107). -/
def execCmdUnlisted112 (p : PortId) (ack : Bool) (s : State) : Result := cmdArrives 112 p ack s

/-- `UNLISTED_113` (R107). -/
def execCmdUnlisted113 (p : PortId) (ack : Bool) (s : State) : Result := cmdArrives 113 p ack s

/-- `UNLISTED_114` (R107). -/
def execCmdUnlisted114 (p : PortId) (ack : Bool) (s : State) : Result := cmdArrives 114 p ack s

/-- `UNLISTED_115` (R107). -/
def execCmdUnlisted115 (p : PortId) (ack : Bool) (s : State) : Result := cmdArrives 115 p ack s

/-- `UNLISTED_116` (R107). -/
def execCmdUnlisted116 (p : PortId) (ack : Bool) (s : State) : Result := cmdArrives 116 p ack s

/-- `UNLISTED_117` (R107). -/
def execCmdUnlisted117 (p : PortId) (ack : Bool) (s : State) : Result := cmdArrives 117 p ack s

/-- `UNLISTED_118` (R107). -/
def execCmdUnlisted118 (p : PortId) (ack : Bool) (s : State) : Result := cmdArrives 118 p ack s

/-- `UNLISTED_119` (R107). -/
def execCmdUnlisted119 (p : PortId) (ack : Bool) (s : State) : Result := cmdArrives 119 p ack s

/-- `UNLISTED_120` (R107). -/
def execCmdUnlisted120 (p : PortId) (ack : Bool) (s : State) : Result := cmdArrives 120 p ack s

/-- `UNLISTED_121` (R107). -/
def execCmdUnlisted121 (p : PortId) (ack : Bool) (s : State) : Result := cmdArrives 121 p ack s

/-- `UNLISTED_122` (R107). -/
def execCmdUnlisted122 (p : PortId) (ack : Bool) (s : State) : Result := cmdArrives 122 p ack s

/-- `UNLISTED_123` (R107). -/
def execCmdUnlisted123 (p : PortId) (ack : Bool) (s : State) : Result := cmdArrives 123 p ack s

/-- `UNLISTED_124` (R107). -/
def execCmdUnlisted124 (p : PortId) (ack : Bool) (s : State) : Result := cmdArrives 124 p ack s

/-- `UNLISTED_125` (R107). -/
def execCmdUnlisted125 (p : PortId) (ack : Bool) (s : State) : Result := cmdArrives 125 p ack s

/-- `UNLISTED_126` (R107). -/
def execCmdUnlisted126 (p : PortId) (ack : Bool) (s : State) : Result := cmdArrives 126 p ack s

/-- `UNLISTED_127` (R107). -/
def execCmdUnlisted127 (p : PortId) (ack : Bool) (s : State) : Result := cmdArrives 127 p ack s

end Sys2Proof.Machine
end

