-- ==== Sys2Proof/Machine/Flags.lean ====
section
/-! DEFINITION. The conditions the block computes from its state. It has no condition codes (R44): these are the
fill counts and tests of the ring (R131, R140), who holds the lock (R37), and the poisoned count (R38). -/

namespace Sys2Proof.Machine

/-- `used(T) = (T.head − T.tail) mod N`, with the mathematical remainder (R131, `00_scope.md` section 5). -/
def Ring.used (T : Ring) : Nat := (((T.head : Int) - T.tail) % T.size).toNat

/-- `free(T) = (T.tail − T.head − 1) mod N` (R131). -/
def Ring.free (T : Ring) : Nat := (((T.tail : Int) - T.head - 1) % T.size).toNat

/-- `empty(T)` (R131, R140). -/
def Ring.isEmpty (T : Ring) : Bool := decide (T.head = T.tail)

/-- `full(T)` (R131). -/
def Ring.isFull (T : Ring) : Bool := decide (T.free = 0)

/-- The agent holds the ring's lock (R37). -/
def Ring.heldBy (T : Ring) (who : Agent) : Bool := decide (T.lock = .held who)

/-- Who may read the cursors: the lock holder and the port's drain task (R285). -/
def Ring.mayReadCursors (T : Ring) (who : Agent) (p : PortId) : Bool := T.heldBy who || decide (who = .drain p)

/-- Slot `i` holds a committed, unsent byte (R130): it is less than `used` slots past the read cursor. -/
def Ring.isCommitted (T : Ring) (i : Nat) : Bool := decide ((((i : Int) - T.tail) % T.size).toNat < T.used)

/-- Every slot of a run holds a committed byte. -/
def Ring.isCommittedRun (T : Ring) (start len : Nat) : Bool := (List.range len).all fun k => T.isCommitted (start + k)

/-- `prov = POISON` (R38). -/
def Prov.isPoison : Prov → Bool
  | .poison => true
  | .count _ => false

end Sys2Proof.Machine
end

