-- ==== Sys2Proof/Machine/Operands.lean ====
section
/-! DEFINITION. The operand forms: the byte sources of the ring writers, and the generator call a ring carries
(R38, R39). The fields of the `CMD` byte and of a frame are in `Sys2Proof/Decode.lean`. -/

namespace Sys2Proof.Machine

/-- A generator call at its start: nothing written, both accumulators at their fixed initial values (R38, R122). -/
def GenCall.start : GenCall := { prov := .count 0, crc8 := 0x00, crc16 := 0xFFFF }

/-- The generator call in progress on a ring; a call that has not written yet is at its start (log 29). -/
def Ring.theCall (T : Ring) : GenCall := T.call.getD GenCall.start

/-- The byte a source names (R162 step 5, R163 steps 5 and 7). -/
def byteOf (T : Ring) : ByteSrc → Byte
  | .lit b => b
  | .genCrc8 => T.theCall.crc8
  | .genCrc16Hi => hiOctet T.theCall.crc16
  | .genCrc16Lo => loOctet T.theCall.crc16

end Sys2Proof.Machine
end

