-- ==== Sys2Proof/Machine/Ring.lean ====
section
/-! DEFINITION. The circular transmit buffer (`spec/41_circular_buffer.md`): the operations on a ring, the CRC steps
of a generator call on it (`spec/40_crc.md`), and the instructions of both families. -/

namespace Sys2Proof.Machine

/-! ### Operations on a ring -/

/-- `cb_claim` on a free ring (R132). A claim begins no generator call yet. -/
def Ring.claim (T : Ring) (who : Agent) : Ring := { T with lock := .held who, call := none }

/-- `cb_release` (R133): cursors and bytes stay; the generator call's own values end with it (R38, R39). -/
def Ring.release (T : Ring) : Ring := { T with lock := .free, call := none }

/-- The start of a generator call: `prov <- 0` (R162 step 2). -/
def Ring.beginCall (T : Ring) : Ring := { T with call := some GenCall.start }

/-- The end of a generator call: its values are dropped (R38, R39, R139). -/
def Ring.dropCall (T : Ring) : Ring := { T with call := none }

/-- Set the provisional count. -/
def Ring.setProv (T : Ring) (v : Prov) : Ring := { T with call := some { T.theCall with prov := v } }

/-- `g.crc8 <- crc8_step(b, g.crc8)` (R39, R162). -/
def Ring.stepCrc8 (c : Cfg) (b : Byte) (T : Ring) : Ring :=
  { T with call := some { T.theCall with crc8 := crc8Step c b T.theCall.crc8 } }

/-- `g.crc16 <- crc16_step(b, g.crc16)` (R39, R163). -/
def Ring.stepCrc16 (c : Cfg) (b : Byte) (T : Ring) : Ring :=
  { T with call := some { T.theCall with crc16 := crc16Step c b T.theCall.crc16 } }

/-- The slot of the `k`-th byte from the write cursor on (R70). -/
def Ring.slot (T : Ring) (k : Nat) : Nat := (T.head + k) % T.size

/-- `MemWrite(TXBUF, (T.head + k) mod N, 1, b)`. -/
def Ring.put (T : Ring) (k : Nat) (b : Byte) : Ring := { T with buf := T.buf.write (T.slot k) b }

/-- `cb_write_raw(T, b, prov)`: one byte without escape doubling (R135, R137). -/
def Ring.writeRaw (T : Ring) (b : Byte) : Ring :=
  match T.theCall.prov with
  | .poison => T.setProv .poison
  | .count n => if T.free < n + 1 then T.setProv .poison else (T.put n b).setProv (.count (n + 1))

/-- `cb_write_esc(T, b, prov)`: a byte equal to `SYNC` is doubled; without room for all of it nothing is written
(R136, R137). -/
def Ring.writeEsc (c : Cfg) (T : Ring) (b : Byte) : Ring :=
  match T.theCall.prov with
  | .poison => T.setProv .poison
  | .count n =>
    if b = c.sync then
      if T.free < n + 2 then T.setProv .poison else ((T.put n b).put (n + 1) c.sync).setProv (.count (n + 2))
    else if T.free < n + 1 then T.setProv .poison else (T.put n b).setProv (.count (n + 1))

/-- `cb_commit(T, prov)`: the write cursor moves by the provisional count, once, unless it is poisoned (R138). The
count is consumed. -/
def Ring.commit (T : Ring) : Ring × Bool :=
  match T.theCall.prov with
  | .poison => (T.dropCall, false)
  | .count n => ({ T.dropCall with head := (T.head + n) % T.size }, true)

/-- `cb_readable_run(T)`: from the read cursor to the write cursor or to the end of the array (R141). -/
def Ring.readableRun (T : Ring) : Nat × Nat :=
  if T.tail ≤ T.head then (T.tail, T.head - T.tail) else (T.tail, T.size - T.tail)

/-- `cb_read_run(T, start, len)` (R142). -/
def Ring.readRun (p : PortId) (T : Ring) (start len : Nat) : Except Fault (List Byte) :=
  T.buf.loadRun (.txbuf p) T.size start len

/-- `cb_advance(T, n)` (R143). -/
def Ring.advance (T : Ring) (n : Nat) : Ring := { T with tail := (T.tail + n) % T.size }

/-- What `cb_advance` requires of `n` (R143). -/
def Ring.mayAdvance (T : Ring) (n : Nat) : Bool := decide (0 < n ∧ n ≤ T.used)

/-- Continue with a ring the agent holds; any other agent's use is misuse (R145, R147). -/
def State.withHeldRing (s : State) (who : Agent) (p : PortId) (k : Ring → Result) : Result :=
  s.withRing p fun T => if T.heldBy who then k T else .refused .notLockHolder

/-! ### The instructions -/

/-- `crc8_step` (R120): on values, or as a line of the generator call the agent has in progress. -/
def execCrc8Step (who : Agent) (form : Crc8Form) (s : State) : Result :=
  match form with
  | .value b acc => .next (s.setRet who (.byte (crc8Step s.cfg b acc)))
  | .gen p src => s.withHeldRing who p fun T =>
    let T' := T.stepCrc8 s.cfg (byteOf T src)
    .next ((s.setTx p T').setRet who (.byte T'.theCall.crc8))

/-- `crc16_step` (R121). -/
def execCrc16Step (who : Agent) (form : Crc16Form) (s : State) : Result :=
  match form with
  | .value b acc => .next (s.setRet who (.word (crc16Step s.cfg b acc)))
  | .gen p src => s.withHeldRing who p fun T =>
    let T' := T.stepCrc16 s.cfg (byteOf T src)
    .next ((s.setTx p T').setRet who (.word T'.theCall.crc16))

/-- `cb_claim` (R132): on a held lock the caller waits, its own lock included (D30, U7). -/
def execCbClaim (who : Agent) (p : PortId) (s : State) : Result :=
  s.withRing p fun T =>
    match T.lock with
    | .free => .next ((s.setTx p (T.claim who)).setRet who .nothing)
    | .held _ => .next (s.waitAt who (.cbClaim who p))

/-- `cb_release` (R133). -/
def execCbRelease (who : Agent) (p : PortId) (s : State) : Result :=
  s.withHeldRing who p fun T => .next ((s.setTx p T.release).setRet who .nothing)

/-- `cb_free` (R134), for the agents R285 lets read the cursors. -/
def execCbFree (who : Agent) (p : PortId) (s : State) : Result :=
  s.withRing p fun T =>
    if T.mayReadCursors who p then .next (s.setRet who (.nat T.free)) else .refused .notOwner

/-- `cb_write_raw` (R135). -/
def execCbWriteRaw (who : Agent) (p : PortId) (src : ByteSrc) (s : State) : Result :=
  s.withHeldRing who p fun T =>
    let T' := T.writeRaw (byteOf T src)
    .next ((s.setTx p T').setRet who (.prov T'.theCall.prov))

/-- `cb_write_esc` (R136). -/
def execCbWriteEsc (who : Agent) (p : PortId) (src : ByteSrc) (s : State) : Result :=
  s.withHeldRing who p fun T =>
    let T' := T.writeEsc s.cfg (byteOf T src)
    .next ((s.setTx p T').setRet who (.prov T'.theCall.prov))

/-- `cb_commit` (R138). -/
def execCbCommit (who : Agent) (p : PortId) (s : State) : Result :=
  s.withHeldRing who p fun T => .next ((s.setTx p T.commit.1).setRet who (.bool T.commit.2))

/-- Discard: the provisional count is dropped with the call, the bytes stay beyond the write cursor (R139). -/
def execCbDiscard (who : Agent) (p : PortId) (s : State) : Result :=
  s.withHeldRing who p fun T => .next ((s.setTx p T.dropCall).setRet who .nothing)

/-- `cb_is_empty` (R140), for the agents R285 lets read the cursors. -/
def execCbIsEmpty (who : Agent) (p : PortId) (s : State) : Result :=
  s.withRing p fun T =>
    if T.mayReadCursors who p then .next (s.setRet who (.bool T.isEmpty)) else .refused .notOwner

/-- `cb_readable_run` (R141), for the agents R285 lets read the cursors. -/
def execCbReadableRun (who : Agent) (p : PortId) (s : State) : Result :=
  s.withRing p fun T =>
    if T.mayReadCursors who p then .next (s.setRet who (.run T.readableRun.1 T.readableRun.2))
    else .refused .notOwner

/-- `cb_read_run` (R142): committed bytes are the drain task's to read, and no agent may read another slot (R285).
R142 speaks of the runs of R141 only. DESIGN CHOICE (log 34): any run of committed slots is read, a run inside the
array with another slot is refused, a run past its end faults. -/
def execCbReadRun (who : Agent) (p : PortId) (start len : Nat) (s : State) : Result :=
  s.withRing p fun T =>
    if who = .drain p then
      if start + len ≤ T.size ∧ T.isCommittedRun start len = false then .refused .notCommitted
      else
        match T.readRun p start len with
        | .error e => .fault e
        | .ok bs => .next (s.setRet who (.bytes bs))
    else .refused .notOwner

/-- `cb_advance` (R143): the drain task's alone, by at most `used` (R147). -/
def execCbAdvance (who : Agent) (p : PortId) (n : Nat) (s : State) : Result :=
  s.withRing p fun T =>
    if who = .drain p then
      if T.mayAdvance n then .next ((s.setTx p (T.advance n)).setRet who .nothing) else .refused .badAdvance
    else .refused .notDrainTask

end Sys2Proof.Machine
end

