-- ==== Sys2Proof/Machine/Generator.lean ====
section
/-! DEFINITION. The frame encoder (`spec/42_generator.md`): the two entry points on a ring whose lock the caller
holds, each one call taken as one step (R72 allows it; log 8). -/

namespace Sys2Proof.Machine

/-- Step 6 of R162, step 8 of R163: commit, and the cause of a late failure (R167, R169). -/
def Ring.finish (T : Ring) : Ring × Option CapacityCause :=
  if T.commit.2 then (T.commit.1, none) else (T.commit.1, some .noSpaceLate)

/-- A logical byte of the header stepped into both accumulators and written (R163 steps 3 and 4, R166). -/
def Ring.emitBoth (c : Cfg) (b : Byte) (T : Ring) : Ring := ((T.stepCrc8 c b).stepCrc16 c b).writeEsc c b

/-- The data bytes, each stepped into `g.crc16` and written (R163 step 6). -/
def Ring.emitData (c : Cfg) : List Byte → Ring → Ring
  | [], T => T
  | b :: bs, T => Ring.emitData c bs ((T.stepCrc16 c b).writeEsc c b)

/-- `gen_header_only(T, cmd)` (R162, with the up-front check of R161). -/
def Ring.genHeaderOnly (c : Cfg) (cmd : Byte) (T : Ring) : Ring × Option CapacityCause :=
  if T.free < 6 then (T.dropCall, some .noSpaceUpFront)
  else
    let T := (T.beginCall.stepCrc8 c c.sync).writeRaw c.sync
    let T := (T.stepCrc8 c cmd).writeEsc c cmd
    let T := (T.stepCrc8 c 0x00).writeEsc c 0x00
    let T := T.writeEsc c T.theCall.crc8
    T.finish

/-- `gen_generic(T, cmd, data)` (R163; R164 for no data, R165 for more than 255 bytes; order of tests R278). -/
def Ring.genGeneric (c : Cfg) (cmd : Byte) (data : List Byte) (T : Ring) : Ring × Option CapacityCause :=
  if 255 < data.length then (T.dropCall, some .tooLong)
  else if data = [] then T.genHeaderOnly c cmd
  else if T.free < data.length + 6 then (T.dropCall, some .noSpaceUpFront)
  else
    let T := ((T.beginCall.stepCrc8 c c.sync).stepCrc16 c c.sync).writeRaw c.sync
    let T := T.emitBoth c cmd
    let T := T.emitBoth c (sizeByte data)
    let T := T.stepCrc16 c T.theCall.crc8
    let T := T.writeEsc c T.theCall.crc8
    let T := T.emitData c data
    let T := T.writeEsc c (hiOctet T.theCall.crc16)
    let T := T.writeEsc c (loOctet T.theCall.crc16)
    T.finish

/-- The entry point a generator function picks (R227): header-only for `none`, generic for a payload. -/
def Ring.generate (c : Cfg) (cmd : Byte) (payload : Option (List Byte)) (T : Ring) : Ring × Option CapacityCause :=
  match payload with
  | none => T.genHeaderOnly c cmd
  | some data => T.genGeneric c cmd data

/-- The number of payload bytes a generator event names (R169). -/
def payloadLength (payload : Option (List Byte)) : Nat := (payload.getD []).length

/-- The event of a generator call (R169). -/
def genEvent (p : PortId) (cmd : Byte) (n : Nat) : Option CapacityCause → Event
  | none => .genOk p cmd n
  | some cause => .genFail p cmd n cause

/-- A generator call of an agent that holds the lock (R160): the ring, the event, and the boolean. -/
def State.generateHeld (s : State) (who : Agent) (p : PortId) (cmd : Byte) (payload : Option (List Byte)) : Result :=
  s.withHeldRing who p fun T =>
    let out := T.generate s.cfg cmd payload
    .next (((s.setTx p out.1).emit p [genEvent p cmd (payloadLength payload) out.2]).setRet who (.bool out.2.isNone))

/-- `gen_header_only` (R162). -/
def execGenHeaderOnly (who : Agent) (p : PortId) (cmd : Byte) (s : State) : Result := s.generateHeld who p cmd none

/-- `gen_generic` (R163 to R165). -/
def execGenGeneric (who : Agent) (p : PortId) (cmd : Byte) (data : List Byte) (s : State) : Result :=
  s.generateHeld who p cmd (some data)

end Sys2Proof.Machine
end

