-- ==== Sys2Proof/Machine/PortManager.lean ====
section
/-! DEFINITION. The port and transmission manager (`spec/45_port_manager.md`): `generate_and_send`, the signal, and
the ACK reply of the decoder (R197). -/

namespace Sys2Proof.Machine

/-- The payload a generator function yields (R227): none for the header-only entry point, the caller's data, or a
payload of at most 255 bytes from device state, a free value (log 11). -/
def State.payload (s : State) (id : Nat) (data : List Byte) : Generator → Option (List Byte)
  | .headerOnly => none
  | .caller => some data
  | .device => some ((Config.devicePayload id s.freeIx).take 255)

/-- A payload from device state uses up its free value. -/
def State.payloadTaken (s : State) : Generator → State
  | .headerOnly | .caller => s
  | .device => { s with freeIx := s.freeIx + 1 }

/-- Steps 3 to 7 of R241 on a free ring: claim, generate, release, and on success the signal, which is the caller's
next step (R72; log 8). -/
def State.generateAndRelease (s : State) (who : Agent) (cmd : Byte) (p : PortId) (payload : Option (List Byte))
    (T : Ring) : State :=
  let out := (T.claim who).generate s.cfg cmd payload
  let s := (s.setTx p out.1.release).emit p [genEvent p cmd (payloadLength payload) out.2]
  let s := s.setRet who (.bool out.2.isNone)
  s.pushWork who (if out.2.isNone then [.signal p] else [])

/-- `generate_and_send(cmd, p, data)` by agent `who` (R241): no buffer and no generator fail without the lock; on a
held lock the caller waits at `self`. -/
def State.generateAndSend (s : State) (self : Instr) (who : Agent) (cmd : Byte) (p : PortId) (data : List Byte) :
    Result :=
  match s.tx? p with
  | none => .next (s.setRet who (.bool false))
  | some T =>
    match lookupGen s.cfg (cmdIdOf cmd).toNat with
    | none => .next (s.setRet who (.bool false))
    | some g =>
      match T.lock with
      | .held _ => .next (s.waitAt who self)
      | .free =>
        .next ((s.payloadTaken g).generateAndRelease who cmd p (s.payload (cmdIdOf cmd).toNat data g) T)

/-- `generate_and_send` (R241). -/
def execGenerateAndSend (who : Agent) (cmd : Byte) (p : PortId) (data : List Byte) (s : State) : Result :=
  s.generateAndSend (.generateAndSend who cmd p data) who cmd p data

/-- The ACK frame's `CMD` byte: id 1, ack bit clear (R109). -/
def ackCmd : Byte := 0x01

/-- The ACK reply (R197): `generate_and_send(ACK, p)` by DecodeTask(p), whose result nothing reads. -/
def execRxSendAck (p : PortId) (s : State) : Result :=
  s.generateAndSend (.rxSendAck p) (.decode p) ackCmd p []

/-- `signal(p)` (R246, R247): without a drain task nothing happens. -/
def execSignal (p : PortId) (s : State) : Result :=
  match s.drain? p with
  | none => .next s
  | some _ => .next ((s.setPending p true).emit p [.signal p])

end Sys2Proof.Machine
end

