-- ==== Sys2Proof/Machine/Tasks.lean ====
section
/-! DEFINITION. The drain controller and the decode task (`spec/45_port_manager.md` sections 4 and 5). Each numbered
line of the drain loop is one step (R72, R249). -/

namespace Sys2Proof.Machine

/-- The drain task at a line of its loop (R249). -/
def Drain.atLine (l : DrainLine) : Drain := { state := .draining, line := l }

/-- The drain task after it has left its loop (R249). -/
def Drain.asleep : Drain := { state := .blocked, line := .testEmpty }

/-- Leaving the loop with bytes left: the abort is observed, the task blocks, the ring keeps its read cursor and
its bytes (R250, R273). -/
def State.abortDrain (s : State) (p : PortId) (cause : DrainCause) : State :=
  (s.setDrain p Drain.asleep).emit p [.drainAbort p cause]

/-- The answers a port's environment still gives. -/
def State.env (s : State) (p : PortId) : Env := ((s.port? p).map Port.env).getD Env.quiet

/-- `TX_TIMEOUT[p]` (R12). -/
def State.txTimeout (s : State) (p : PortId) : Nat := ((s.port? p).map Port.txTimeout).getD 0

/-- `RX_TIMEOUT[p]` (R12). -/
def State.rxTimeout (s : State) (p : PortId) : Nat := ((s.port? p).map Port.rxTimeout).getD 0

/-- Wake (R248): a blocked task has a step only when `pending` is set, and then clears it. -/
def execDrainWake (p : PortId) (s : State) : Result :=
  s.withDrain p fun d =>
    match s.port? p with
    | some P =>
      if d.state = .blocked ∧ P.pending = true then
        .next ((s.setPending p false).setDrain p (Drain.atLine .testEmpty))
      else .next s
    | none => .next s

/-- Line 1 (R249): an empty ring ends the drain. -/
def State.drainTest (s : State) (p : PortId) (T : Ring) : State :=
  if T.isEmpty then s.setDrain p Drain.asleep else s.setDrain p (Drain.atLine .queryActive)

/-- Line 2 (R249): ask `is_active`; without an answer the task waits (log 9). -/
def State.drainQuery (s : State) (p : PortId) : State :=
  match (s.env p).active with
  | [] => s
  | a :: rest =>
    let s := (s.setEnv p { s.env p with active := rest }).boundary p [.isActive]
    if a then s.setDrain p (Drain.atLine .readRun) else s.abortDrain p .inactive

/-- Line 3 (R249): read the whole readable run (R141, R142). -/
def State.drainRead (s : State) (p : PortId) (T : Ring) : Result :=
  match T.readRun p T.readableRun.1 T.readableRun.2 with
  | .error e => .fault e
  | .ok bs => .next (s.setDrain p (Drain.atLine (.sendRun bs)))

/-- Line 4 (R249): claim, `send`, release; without an answer the task waits (log 9). -/
def State.drainSend (s : State) (p : PortId) (bs : List Byte) : State :=
  match (s.env p).sends with
  | [] => s
  | ok :: rest =>
    let s := (s.setEnv p { s.env p with sends := rest }).boundary p [.claim, .send bs (s.txTimeout p), .release]
    s.setDrain p (Drain.atLine (.settle bs ok))

/-- Line 5 (R249): advance on success, abort otherwise. -/
def State.drainSettle (s : State) (p : PortId) (T : Ring) (bs : List Byte) (ok : Bool) : Result :=
  if ok then
    if T.mayAdvance bs.length then
      .next (((s.setTx p (T.advance bs.length)).emit p [.txBytes p bs]).setDrain p (Drain.atLine .testEmpty))
    else .refused .badAdvance
  else .next (s.abortDrain p .sendFailed)

/-- The next numbered line of the drain loop (R249). DESIGN CHOICE (log 27): on a blocked task, and at a line whose
answer is not there, the row changes nothing, and as an operation an agent has to do it is used up. -/
def execDrainIteration (p : PortId) (s : State) : Result :=
  s.withDrain p fun d =>
    s.withRing p fun T =>
      match d.state with
      | .blocked => .next s
      | .draining =>
        match d.line with
        | .testEmpty => .next (s.drainTest p T)
        | .queryActive => .next (s.drainQuery p)
        | .readRun => s.drainRead p T
        | .sendRun bs => .next (s.drainSend p bs)
        | .settle bs ok => s.drainSettle p T bs ok

/-- The abort exit of the loop (R250). The loop itself leaves at lines 2 and 5 only. DESIGN CHOICE (log 27): run as an
operation of its own, the row leaves the loop from whichever line comes next, with the cause it names, and on a blocked
task, which has no loop to leave, it changes nothing. -/
def execDrainAbort (p : PortId) (cause : DrainCause) (s : State) : Result :=
  s.withDrain p fun d =>
    match d.state with
    | .blocked => .next s
    | .draining => .next (s.abortDrain p cause)

/-- Take the next answer of `read_byte` from a port's environment, recording the call with its timeout token. -/
def State.takeInput (s : State) (p : PortId) (rest : List RxAnswer) : State :=
  (s.setEnv p { s.env p with input := rest }).boundary p [.readByte (s.rxTimeout p)]

/-- One round of the decode task's loop (R253): a byte goes to the byte step, a timeout has no effect on the decoder,
and without an answer the task waits in `read_byte` (R291), which is a row that changes nothing. DESIGN CHOICE (log 27):
a row the task has among its operations is then used up, not put back; the task's loop asks again when no operation is
left. -/
def execDecodeTaskIteration (p : PortId) (s : State) : Result :=
  match s.rx? p with
  | none => .refused .noReceiver
  | some _ =>
    match (s.env p).input with
    | [] => .next s
    | .timeout :: rest => .next (s.takeInput p rest)
    | .byte b :: rest => (s.takeInput p rest).decoder p fun c r => rxStep c b r

end Sys2Proof.Machine
end

