-- ==== Sys2Proof/Machine/Wire.lean ====
section
/-! DEFINITION. The instructions that are bytes and frames on the wire (`spec/30_encoding.md`): the frame marker, the
logical frames, the mid-frame `SYNC`. The `CMD` bytes are in `CmdBytes.lean`. -/

namespace Sys2Proof.Machine

/-- The frame-marker byte arrives on port `p` (R91, R183): a byte step with `SYNC`. -/
def execSync (p : PortId) (s : State) : Result := s.decoder p fun c r => rxStep c c.sync r

/-- The byte class `SYNC` of the mid-frame states arrives on port `p` (R181; in other states as the byte step says,
R183, R186, R195). -/
def execRxByteSyncMidframe (p : PortId) (s : State) : Result := s.decoder p fun c r => rxStep c c.sync r

/-- A header-only frame arrives on port `p` (R90): its wire form (R97) goes through the byte step in order (R110). -/
def execFrameHeaderOnly (p : PortId) (ack : Bool) (id : BitVec 7) (crc8 : Byte) (s : State) : Result :=
  s.decoder p fun c r => rxFeed c (wire c.sync (headerBytes c.sync (cmdByte ack id) 0 crc8)) r

/-- A frame with data arrives on port `p` (R90, R97, R110). -/
def execFrameWithData (p : PortId) (ack : Bool) (id : BitVec 7) (crc8 : Byte) (data : List Byte) (crc16 : Word16)
    (s : State) : Result :=
  s.decoder p fun c r => rxFeed c (wire c.sync (dataFrameBytes c.sync (cmdByte ack id) crc8 data crc16)) r

end Sys2Proof.Machine
end

