-- ==== Sys2Proof/Machine/Dispatch.lean ====
section
/-! DEFINITION. The dispatch of instructions to their meanings, one arm per constructor. -/

namespace Sys2Proof.Machine
open Sys2Proof

/-- What each instruction does. -/
def exec (i : Instr) (s : State) : Host.Outcome State Fault Refusal :=
  match i with
  | .sync p => Sys2Proof.Machine.execSync p s
  | .frameHeaderOnly p ack id crc8 => Sys2Proof.Machine.execFrameHeaderOnly p ack id crc8 s
  | .frameWithData p ack id crc8 data crc16 => Sys2Proof.Machine.execFrameWithData p ack id crc8 data crc16 s
  | .cmdNone p ack => Sys2Proof.Machine.execCmdNone p ack s
  | .cmdAck p ack => Sys2Proof.Machine.execCmdAck p ack s
  | .cmdPing p ack => Sys2Proof.Machine.execCmdPing p ack s
  | .cmdDebugMessage p ack => Sys2Proof.Machine.execCmdDebugMessage p ack s
  | .cmdGetRunningMode p ack => Sys2Proof.Machine.execCmdGetRunningMode p ack s
  | .cmdUnlisted5 p ack => Sys2Proof.Machine.execCmdUnlisted5 p ack s
  | .cmdUnlisted6 p ack => Sys2Proof.Machine.execCmdUnlisted6 p ack s
  | .cmdUnlisted7 p ack => Sys2Proof.Machine.execCmdUnlisted7 p ack s
  | .cmdUnlisted8 p ack => Sys2Proof.Machine.execCmdUnlisted8 p ack s
  | .cmdUnlisted9 p ack => Sys2Proof.Machine.execCmdUnlisted9 p ack s
  | .cmdFwUpdate10 p ack => Sys2Proof.Machine.execCmdFwUpdate10 p ack s
  | .cmdFwUpdate11 p ack => Sys2Proof.Machine.execCmdFwUpdate11 p ack s
  | .cmdFwUpdate12 p ack => Sys2Proof.Machine.execCmdFwUpdate12 p ack s
  | .cmdFwUpdate13 p ack => Sys2Proof.Machine.execCmdFwUpdate13 p ack s
  | .cmdFwUpdate14 p ack => Sys2Proof.Machine.execCmdFwUpdate14 p ack s
  | .cmdFwUpdate15 p ack => Sys2Proof.Machine.execCmdFwUpdate15 p ack s
  | .cmdFwUpdate16 p ack => Sys2Proof.Machine.execCmdFwUpdate16 p ack s
  | .cmdGetDeviceInfo p ack => Sys2Proof.Machine.execCmdGetDeviceInfo p ack s
  | .cmdUnlisted18 p ack => Sys2Proof.Machine.execCmdUnlisted18 p ack s
  | .cmdUnlisted19 p ack => Sys2Proof.Machine.execCmdUnlisted19 p ack s
  | .cmdUnlisted20 p ack => Sys2Proof.Machine.execCmdUnlisted20 p ack s
  | .cmdUnlisted21 p ack => Sys2Proof.Machine.execCmdUnlisted21 p ack s
  | .cmdUnlisted22 p ack => Sys2Proof.Machine.execCmdUnlisted22 p ack s
  | .cmdUnlisted23 p ack => Sys2Proof.Machine.execCmdUnlisted23 p ack s
  | .cmdUnlisted24 p ack => Sys2Proof.Machine.execCmdUnlisted24 p ack s
  | .cmdUnlisted25 p ack => Sys2Proof.Machine.execCmdUnlisted25 p ack s
  | .cmdUnlisted26 p ack => Sys2Proof.Machine.execCmdUnlisted26 p ack s
  | .cmdUnlisted27 p ack => Sys2Proof.Machine.execCmdUnlisted27 p ack s
  | .cmdUnlisted28 p ack => Sys2Proof.Machine.execCmdUnlisted28 p ack s
  | .cmdUnlisted29 p ack => Sys2Proof.Machine.execCmdUnlisted29 p ack s
  | .cmdUnlisted30 p ack => Sys2Proof.Machine.execCmdUnlisted30 p ack s
  | .cmdUnlisted31 p ack => Sys2Proof.Machine.execCmdUnlisted31 p ack s
  | .cmdUnlisted32 p ack => Sys2Proof.Machine.execCmdUnlisted32 p ack s
  | .cmdUnlisted33 p ack => Sys2Proof.Machine.execCmdUnlisted33 p ack s
  | .cmdUnlisted34 p ack => Sys2Proof.Machine.execCmdUnlisted34 p ack s
  | .cmdUnlisted35 p ack => Sys2Proof.Machine.execCmdUnlisted35 p ack s
  | .cmdUnlisted36 p ack => Sys2Proof.Machine.execCmdUnlisted36 p ack s
  | .cmdUnlisted37 p ack => Sys2Proof.Machine.execCmdUnlisted37 p ack s
  | .cmdUnlisted38 p ack => Sys2Proof.Machine.execCmdUnlisted38 p ack s
  | .cmdUnlisted39 p ack => Sys2Proof.Machine.execCmdUnlisted39 p ack s
  | .cmdUnlisted40 p ack => Sys2Proof.Machine.execCmdUnlisted40 p ack s
  | .cmdUnlisted41 p ack => Sys2Proof.Machine.execCmdUnlisted41 p ack s
  | .cmdUnlisted42 p ack => Sys2Proof.Machine.execCmdUnlisted42 p ack s
  | .cmdUnlisted43 p ack => Sys2Proof.Machine.execCmdUnlisted43 p ack s
  | .cmdUnlisted44 p ack => Sys2Proof.Machine.execCmdUnlisted44 p ack s
  | .cmdUnlisted45 p ack => Sys2Proof.Machine.execCmdUnlisted45 p ack s
  | .cmdUnlisted46 p ack => Sys2Proof.Machine.execCmdUnlisted46 p ack s
  | .cmdUnlisted47 p ack => Sys2Proof.Machine.execCmdUnlisted47 p ack s
  | .cmdUnlisted48 p ack => Sys2Proof.Machine.execCmdUnlisted48 p ack s
  | .cmdUnlisted49 p ack => Sys2Proof.Machine.execCmdUnlisted49 p ack s
  | .cmdUnlisted50 p ack => Sys2Proof.Machine.execCmdUnlisted50 p ack s
  | .cmdUnlisted51 p ack => Sys2Proof.Machine.execCmdUnlisted51 p ack s
  | .cmdUnlisted52 p ack => Sys2Proof.Machine.execCmdUnlisted52 p ack s
  | .cmdUnlisted53 p ack => Sys2Proof.Machine.execCmdUnlisted53 p ack s
  | .cmdUnlisted54 p ack => Sys2Proof.Machine.execCmdUnlisted54 p ack s
  | .cmdUnlisted55 p ack => Sys2Proof.Machine.execCmdUnlisted55 p ack s
  | .cmdUnlisted56 p ack => Sys2Proof.Machine.execCmdUnlisted56 p ack s
  | .cmdUnlisted57 p ack => Sys2Proof.Machine.execCmdUnlisted57 p ack s
  | .cmdUnlisted58 p ack => Sys2Proof.Machine.execCmdUnlisted58 p ack s
  | .cmdUnlisted59 p ack => Sys2Proof.Machine.execCmdUnlisted59 p ack s
  | .cmdUnlisted60 p ack => Sys2Proof.Machine.execCmdUnlisted60 p ack s
  | .cmdUnlisted61 p ack => Sys2Proof.Machine.execCmdUnlisted61 p ack s
  | .cmdUnlisted62 p ack => Sys2Proof.Machine.execCmdUnlisted62 p ack s
  | .cmdUnlisted63 p ack => Sys2Proof.Machine.execCmdUnlisted63 p ack s
  | .cmdUnlisted64 p ack => Sys2Proof.Machine.execCmdUnlisted64 p ack s
  | .cmdUnlisted65 p ack => Sys2Proof.Machine.execCmdUnlisted65 p ack s
  | .cmdUnlisted66 p ack => Sys2Proof.Machine.execCmdUnlisted66 p ack s
  | .cmdUnlisted67 p ack => Sys2Proof.Machine.execCmdUnlisted67 p ack s
  | .cmdUnlisted68 p ack => Sys2Proof.Machine.execCmdUnlisted68 p ack s
  | .cmdUnlisted69 p ack => Sys2Proof.Machine.execCmdUnlisted69 p ack s
  | .cmdUnlisted70 p ack => Sys2Proof.Machine.execCmdUnlisted70 p ack s
  | .cmdUnlisted71 p ack => Sys2Proof.Machine.execCmdUnlisted71 p ack s
  | .cmdUnlisted72 p ack => Sys2Proof.Machine.execCmdUnlisted72 p ack s
  | .cmdUnlisted73 p ack => Sys2Proof.Machine.execCmdUnlisted73 p ack s
  | .cmdUnlisted74 p ack => Sys2Proof.Machine.execCmdUnlisted74 p ack s
  | .cmdUnlisted75 p ack => Sys2Proof.Machine.execCmdUnlisted75 p ack s
  | .cmdUnlisted76 p ack => Sys2Proof.Machine.execCmdUnlisted76 p ack s
  | .cmdUnlisted77 p ack => Sys2Proof.Machine.execCmdUnlisted77 p ack s
  | .cmdUnlisted78 p ack => Sys2Proof.Machine.execCmdUnlisted78 p ack s
  | .cmdUnlisted79 p ack => Sys2Proof.Machine.execCmdUnlisted79 p ack s
  | .cmdUnlisted80 p ack => Sys2Proof.Machine.execCmdUnlisted80 p ack s
  | .cmdUnlisted81 p ack => Sys2Proof.Machine.execCmdUnlisted81 p ack s
  | .cmdUnlisted82 p ack => Sys2Proof.Machine.execCmdUnlisted82 p ack s
  | .cmdUnlisted83 p ack => Sys2Proof.Machine.execCmdUnlisted83 p ack s
  | .cmdUnlisted84 p ack => Sys2Proof.Machine.execCmdUnlisted84 p ack s
  | .cmdUnlisted85 p ack => Sys2Proof.Machine.execCmdUnlisted85 p ack s
  | .cmdUnlisted86 p ack => Sys2Proof.Machine.execCmdUnlisted86 p ack s
  | .cmdUnlisted87 p ack => Sys2Proof.Machine.execCmdUnlisted87 p ack s
  | .cmdUnlisted88 p ack => Sys2Proof.Machine.execCmdUnlisted88 p ack s
  | .cmdUnlisted89 p ack => Sys2Proof.Machine.execCmdUnlisted89 p ack s
  | .cmdUnlisted90 p ack => Sys2Proof.Machine.execCmdUnlisted90 p ack s
  | .cmdUnlisted91 p ack => Sys2Proof.Machine.execCmdUnlisted91 p ack s
  | .cmdUnlisted92 p ack => Sys2Proof.Machine.execCmdUnlisted92 p ack s
  | .cmdUnlisted93 p ack => Sys2Proof.Machine.execCmdUnlisted93 p ack s
  | .cmdUnlisted94 p ack => Sys2Proof.Machine.execCmdUnlisted94 p ack s
  | .cmdUnlisted95 p ack => Sys2Proof.Machine.execCmdUnlisted95 p ack s
  | .cmdUnlisted96 p ack => Sys2Proof.Machine.execCmdUnlisted96 p ack s
  | .cmdUnlisted97 p ack => Sys2Proof.Machine.execCmdUnlisted97 p ack s
  | .cmdUnlisted98 p ack => Sys2Proof.Machine.execCmdUnlisted98 p ack s
  | .cmdUnlisted99 p ack => Sys2Proof.Machine.execCmdUnlisted99 p ack s
  | .cmdUnlisted100 p ack => Sys2Proof.Machine.execCmdUnlisted100 p ack s
  | .cmdUnlisted101 p ack => Sys2Proof.Machine.execCmdUnlisted101 p ack s
  | .cmdUnlisted102 p ack => Sys2Proof.Machine.execCmdUnlisted102 p ack s
  | .cmdUnlisted103 p ack => Sys2Proof.Machine.execCmdUnlisted103 p ack s
  | .cmdUnlisted104 p ack => Sys2Proof.Machine.execCmdUnlisted104 p ack s
  | .cmdUnlisted105 p ack => Sys2Proof.Machine.execCmdUnlisted105 p ack s
  | .cmdUnlisted106 p ack => Sys2Proof.Machine.execCmdUnlisted106 p ack s
  | .cmdUnlisted107 p ack => Sys2Proof.Machine.execCmdUnlisted107 p ack s
  | .cmdUnlisted108 p ack => Sys2Proof.Machine.execCmdUnlisted108 p ack s
  | .cmdUnlisted109 p ack => Sys2Proof.Machine.execCmdUnlisted109 p ack s
  | .cmdUnlisted110 p ack => Sys2Proof.Machine.execCmdUnlisted110 p ack s
  | .cmdUnlisted111 p ack => Sys2Proof.Machine.execCmdUnlisted111 p ack s
  | .cmdUnlisted112 p ack => Sys2Proof.Machine.execCmdUnlisted112 p ack s
  | .cmdUnlisted113 p ack => Sys2Proof.Machine.execCmdUnlisted113 p ack s
  | .cmdUnlisted114 p ack => Sys2Proof.Machine.execCmdUnlisted114 p ack s
  | .cmdUnlisted115 p ack => Sys2Proof.Machine.execCmdUnlisted115 p ack s
  | .cmdUnlisted116 p ack => Sys2Proof.Machine.execCmdUnlisted116 p ack s
  | .cmdUnlisted117 p ack => Sys2Proof.Machine.execCmdUnlisted117 p ack s
  | .cmdUnlisted118 p ack => Sys2Proof.Machine.execCmdUnlisted118 p ack s
  | .cmdUnlisted119 p ack => Sys2Proof.Machine.execCmdUnlisted119 p ack s
  | .cmdUnlisted120 p ack => Sys2Proof.Machine.execCmdUnlisted120 p ack s
  | .cmdUnlisted121 p ack => Sys2Proof.Machine.execCmdUnlisted121 p ack s
  | .cmdUnlisted122 p ack => Sys2Proof.Machine.execCmdUnlisted122 p ack s
  | .cmdUnlisted123 p ack => Sys2Proof.Machine.execCmdUnlisted123 p ack s
  | .cmdUnlisted124 p ack => Sys2Proof.Machine.execCmdUnlisted124 p ack s
  | .cmdUnlisted125 p ack => Sys2Proof.Machine.execCmdUnlisted125 p ack s
  | .cmdUnlisted126 p ack => Sys2Proof.Machine.execCmdUnlisted126 p ack s
  | .cmdUnlisted127 p ack => Sys2Proof.Machine.execCmdUnlisted127 p ack s
  | .crc8Step who form => Sys2Proof.Machine.execCrc8Step who form s
  | .crc16Step who form => Sys2Proof.Machine.execCrc16Step who form s
  | .cbClaim who p => Sys2Proof.Machine.execCbClaim who p s
  | .cbRelease who p => Sys2Proof.Machine.execCbRelease who p s
  | .cbFree who p => Sys2Proof.Machine.execCbFree who p s
  | .cbWriteRaw who p src => Sys2Proof.Machine.execCbWriteRaw who p src s
  | .cbWriteEsc who p src => Sys2Proof.Machine.execCbWriteEsc who p src s
  | .cbCommit who p => Sys2Proof.Machine.execCbCommit who p s
  | .cbDiscard who p => Sys2Proof.Machine.execCbDiscard who p s
  | .cbIsEmpty who p => Sys2Proof.Machine.execCbIsEmpty who p s
  | .cbReadableRun who p => Sys2Proof.Machine.execCbReadableRun who p s
  | .cbReadRun who p start len => Sys2Proof.Machine.execCbReadRun who p start len s
  | .cbAdvance who p n => Sys2Proof.Machine.execCbAdvance who p n s
  | .genHeaderOnly who p cmd => Sys2Proof.Machine.execGenHeaderOnly who p cmd s
  | .genGeneric who p cmd data => Sys2Proof.Machine.execGenGeneric who p cmd data s
  | .rxStep p b => Sys2Proof.Machine.execRxStep p b s
  | .rxWaitSync p b => Sys2Proof.Machine.execRxWaitSync p b s
  | .rxReseed p => Sys2Proof.Machine.execRxReseed p s
  | .rxRxCmd p b => Sys2Proof.Machine.execRxRxCmd p b s
  | .rxRxSize p b => Sys2Proof.Machine.execRxRxSize p b s
  | .rxRxCrc8 p b => Sys2Proof.Machine.execRxRxCrc8 p b s
  | .rxFail p cause => Sys2Proof.Machine.execRxFail p cause s
  | .rxComplete p => Sys2Proof.Machine.execRxComplete p s
  | .rxRxData p b => Sys2Proof.Machine.execRxRxData p b s
  | .rxRxCrc16Hi p b => Sys2Proof.Machine.execRxRxCrc16Hi p b s
  | .rxRxCrc16Lo p b => Sys2Proof.Machine.execRxRxCrc16Lo p b s
  | .rxEscapeConfirmed p => Sys2Proof.Machine.execRxEscapeConfirmed p s
  | .rxAbandonRestart p b => Sys2Proof.Machine.execRxAbandonRestart p b s
  | .rxSendAck p => Sys2Proof.Machine.execRxSendAck p s
  | .lookupDec who id => Sys2Proof.Machine.execLookupDec who id s
  | .lookupGen who id => Sys2Proof.Machine.execLookupGen who id s
  | .generateAndSend who cmd p data => Sys2Proof.Machine.execGenerateAndSend who cmd p data s
  | .signal p => Sys2Proof.Machine.execSignal p s
  | .drainWake p => Sys2Proof.Machine.execDrainWake p s
  | .drainIteration p => Sys2Proof.Machine.execDrainIteration p s
  | .drainAbort p cause => Sys2Proof.Machine.execDrainAbort p cause s
  | .decodeTaskIteration p => Sys2Proof.Machine.execDecodeTaskIteration p s
  | .rxByteSyncMidframe p => Sys2Proof.Machine.execRxByteSyncMidframe p s

end Sys2Proof.Machine
end

