-- ==== Sys2Proof/Machine/Fetch.lean ====
section
/-! DEFINITION. What an agent's turn executes: the block has no program counter that points into a memory; DecodeTask(p)
takes the next byte its transport answers and decodes it in the decoder's state (`00_scope.md` section 1), DrainTask(p)
runs its loop, and every agent first executes the operations it still has to do. -/

namespace Sys2Proof.Machine

/-- What a turn does. -/
inductive Fetched where
  /-- The agent has nothing to do, or waits for an answer of its environment: the turn changes nothing. -/
  | idle
  /-- The environment answers: a handler returns. -/
  | moved (s : State)
  /-- The agent executes an instruction in this state. -/
  | run (i : Instr) (s : State)
  /-- The agent's next operation is another agent's to execute (R285, U4). -/
  | misuse
  deriving DecidableEq, Repr

/-- The operation a handler's reply request asks for (R226, R241), made by the decode task of port `p`. -/
def replyInstr (p : PortId) (r : Reply) : Instr := .generateAndSend (.decode p) r.cmd r.port r.data

/-- The decoding context of port `p` with receiver registers `r`. -/
def State.decodeCtx (s : State) (p : PortId) (r : Rx) : DecodeCtx := { sync := s.cfg.sync, state := r.state, port := p }

/-- Agent `a` may execute the instruction (R71, R73, R285): what steps or reads a port's receiver is DecodeTask(p)'s,
the drain's operations are DrainTask(p)'s, an operation that names its caller is that caller's, and every agent may
signal. -/
def mayExecute (a : Agent) : Instr → Bool
  | .sync p | .rxByteSyncMidframe p | .frameHeaderOnly p _ _ _ | .frameWithData p _ _ _ _ _ | .rxStep p _
  | .rxWaitSync p _ | .rxReseed p | .rxRxCmd p _ | .rxRxSize p _ | .rxRxCrc8 p _ | .rxFail p _ | .rxComplete p
  | .rxRxData p _ | .rxRxCrc16Hi p _ | .rxRxCrc16Lo p _ | .rxEscapeConfirmed p | .rxAbandonRestart p _ | .rxSendAck p
  | .decodeTaskIteration p => decide (a = .decode p)
  | .drainWake p | .drainIteration p | .drainAbort p _ => decide (a = .drain p)
  | .crc8Step who _ | .crc16Step who _ | .cbClaim who _ | .cbRelease who _ | .cbFree who _ | .cbWriteRaw who _ _
  | .cbWriteEsc who _ _ | .cbCommit who _ | .cbDiscard who _ | .cbIsEmpty who _ | .cbReadableRun who _
  | .cbReadRun who _ _ _ | .cbAdvance who _ _ | .genHeaderOnly who _ _ | .genGeneric who _ _ _ | .lookupDec who _
  | .lookupGen who _ | .generateAndSend who _ _ _ => decide (a = who)
  | .signal _ => true
  | i =>
    match i.cmdOperands with
    | some (p, _, _) => decide (a = .decode p)
    | none => false

/-- An agent's own operations come first; without any, `otherwise`. An operation that is another agent's is misuse,
which the model refuses (R285, U4; log 14). -/
def fetchWork (a : Agent) (otherwise : Fetched) (s : State) : Fetched :=
  match (s.ctx a).todo with
  | i :: rest => if mayExecute a i then .run i (s.setTodo a rest) else .misuse
  | [] => otherwise

/-- The handler of port `p` returns with its reply requests, which become the decode task's next work (R226); until
then the task waits (U8, log 10). -/
def fetchHandlerReturn (p : PortId) (r : Rx) (s : State) : Fetched :=
  match (s.env p).handlerReturns with
  | [] => .idle
  | replies :: rest =>
    .moved (((s.setEnv p { s.env p with handlerReturns := rest }).setRx p { r with inHandler := none }).pushWork
      (.decode p) (replies.map (replyInstr p)))

/-- The next byte of port `p`'s transport, decoded in the decoder's state (R253, R198); a timeout or a missing
answer is a round of the loop without a byte. -/
def fetchByte (p : PortId) (r : Rx) (s : State) : Fetched :=
  match (s.env p).input with
  | .byte b :: rest =>
    match decode (s.decodeCtx p r) [b] with
    | .instr i => .run i (s.takeInput p rest)
    | .rejected _ => .idle
  | _ => .run (.decodeTaskIteration p) s

/-- A turn of DecodeTask(p): inside a handler it waits for the return (R190, R203), else it makes the calls it still
has to make, else it reads a byte. -/
def fetchDecode (p : PortId) (s : State) : Fetched :=
  match s.rx? p with
  | none => .idle
  | some r =>
    match r.inHandler with
    | some _ => fetchHandlerReturn p r s
    | none => fetchWork (.decode p) (fetchByte p r s) s

/-- DrainTask(p)'s own loop: the wake when it is blocked, the next line otherwise (R248, R249). -/
def fetchDrainLoop (p : PortId) (d : Drain) (s : State) : Fetched :=
  match d.state with
  | .blocked => .run (.drainWake p) s
  | .draining => .run (.drainIteration p) s

/-- A turn of DrainTask(p): without a handle the port has no such agent and the turn changes nothing, whatever is
listed for it (R41; log 15); else it makes the calls it has to make, else it runs its loop. -/
def fetchDrain (p : PortId) (s : State) : Fetched :=
  match s.drain? p with
  | none => .idle
  | some d => fetchWork (.drain p) (fetchDrainLoop p d s) s

/-- A turn of an agent. The host polls the counters, which changes nothing (R31, R68). -/
def fetch (a : Agent) (s : State) : Fetched :=
  match a with
  | .decode p => fetchDecode p s
  | .drain p => fetchDrain p s
  | .writer w => fetchWork (.writer w) .idle s
  | .host => fetchWork .host .idle s

/-- Place a byte where DecodeTask(0) takes its next instruction, in the decoder's state in which it is one. -/
def State.placeByte (s : State) (b : Byte) : State :=
  match s.rx? 0 with
  | none => s
  | some r =>
    let s := s.setRx 0 { r with state := tableState Config.cfg.sync b, inHandler := none }
    let s := s.setEnv 0 { s.env 0 with input := .byte b :: (s.env 0).input }
    { s.setTodo (.decode 0) [] with sched := .decode 0 :: s.sched }

/-- Place an instruction as DecodeTask(0)'s next operation. -/
def State.placeInstr (s : State) (i : Instr) : State :=
  match s.rx? 0 with
  | none => s
  | some r =>
    let s := s.setRx 0 { r with inHandler := none }
    { s.pushWork (.decode 0) [i] with sched := .decode 0 :: s.sched }

end Sys2Proof.Machine
end

