-- ==== Sys2Proof/Machine/Step.lean ====
section
/-! DEFINITION. One step of the block: one turn of the agent whose turn it is (R13, R72). -/

namespace Sys2Proof.Machine

/-- A turn of agent `a`. -/
def turn (a : Agent) (s : State) : Host.Outcome State Fault Refusal :=
  match fetch a s with
  | .idle => .next s
  | .moved s' => .next s'
  | .run i s' => exec i s'
  | .misuse => .refused .notOwner

/-- One step: the first agent of the schedule takes its turn. With no agent scheduled nothing moves (log 26). -/
def step (s : State) : Host.Outcome State Fault Refusal :=
  match s.sched with
  | [] => .next s
  | a :: rest => turn a { s with sched := rest }

/-- `s` with the instruction of a word of `spec/opcode_table.json` where the next step takes it: a one-byte row as the
next byte of port 0, in the decoder's state in which it is that row (log 17); a frame as DecodeTask(0)'s next
operation (log 26). -/
def State.withFetchWord (s : State) (nbits w : Nat) : State :=
  match decodeTableWord nbits w with
  | none => s
  | some i => if nbits = 8 then s.placeByte (BitVec.ofNat 8 w) else s.placeInstr i

end Sys2Proof.Machine
end

