-- ==== Sys2Proof/Safety.lean ====
section
/-! DEFINITION. What counts as a sound state of the block, in the terms its claims use: the invariants of R144 and of
`spec/10_state.md`, the coherence of the decoder and of the drain with what they have done so far, and the programs
the spec's own agents run. -/

namespace Sys2Proof

/-- The operations the spec's own agents have still to do: `generate_and_send` and its signal for any thread (R13);
byte steps, frames and the ACK on its own port for a decode task (R72, R110). -/
def Instr.isTask (a : Agent) : Instr → Bool
  | .generateAndSend who _ _ _ => decide (who = a)
  | .signal _ => true
  | .rxSendAck p | .rxStep p _ | .frameHeaderOnly p _ _ _ | .frameWithData p _ _ _ _ _ => decide (a = .decode p)
  | _ => false

/-- The decoder's state and port in which the bytes of an instruction are read as that instruction (R198). -/
def Instr.readIn (p : PortId) (st : RxState) : Instr → Prop
  | .sync q => q = p ∧ st = .waitSync
  | .rxByteSyncMidframe q => q = p ∧ ∃ m, st = .mid m
  | .frameHeaderOnly q _ _ _ => q = p
  | .frameWithData q _ _ _ _ _ => q = p
  | i => ∃ ack id, i.cmdOperands = some (p, ack, id) ∧ st = .rxCmd

/-- The port whose receiver registers an instruction works on: the bytes and frames on the wire and the operations of
the decoder (R71). The decode task's round is not among them: it also takes an answer of the environment. -/
def Instr.rxPort? : Instr → Option PortId
  | .sync p | .rxByteSyncMidframe p | .frameHeaderOnly p _ _ _ | .frameWithData p _ _ _ _ _ => some p
  | .rxStep p _ | .rxWaitSync p _ | .rxReseed p | .rxRxCmd p _ | .rxRxSize p _ | .rxRxCrc8 p _ | .rxFail p _
  | .rxComplete p | .rxRxData p _ | .rxRxCrc16Hi p _ | .rxRxCrc16Lo p _ | .rxEscapeConfirmed p
  | .rxAbandonRestart p _ => some p
  | i => i.cmdOperands.map Prod.fst

/-- The operations that may move a write cursor: the commit and the generator calls that end with one (R144 item 5). -/
def Instr.commits : Instr → Bool
  | .cbCommit _ _ | .genHeaderOnly _ _ _ | .genGeneric _ _ _ _ | .generateAndSend _ _ _ _ | .rxSendAck _ => true
  | _ => false

/-- The operations that may move a read cursor: the advance and the drain's line that makes it (R144 item 5). -/
def Instr.advances : Instr → Bool
  | .cbAdvance _ _ _ | .drainIteration _ => true
  | _ => false

/-- The ring an instruction needs, for the operations that have no meaning without it (R36). -/
def Instr.ringPort? : Instr → Option PortId
  | .crc8Step _ (.gen p _) | .crc16Step _ (.gen p _) | .cbClaim _ p | .cbRelease _ p | .cbFree _ p | .cbWriteRaw _ p _
  | .cbWriteEsc _ p _ | .cbCommit _ p | .cbDiscard _ p | .cbIsEmpty _ p | .cbReadableRun _ p | .cbReadRun _ p _ _
  | .cbAdvance _ p _ | .genHeaderOnly _ p _ | .genGeneric _ p _ _ => some p
  | _ => none

end Sys2Proof

namespace Sys2Proof.Machine

/-- Something has written the byte at index `i`. -/
def Mem.Written (m : Mem) (i : Nat) : Prop := (m.read i).isSome = true

/-- Every listed index is below `n`. -/
def Mem.Below (m : Mem) (n : Nat) : Prop := ∀ i, m.Written i → i < n

/-- The bytes of the list stand in the memory from index `start` on. -/
def Mem.Holds (m : Mem) (start : Nat) (bs : List Byte) : Prop := ∀ k (h : k < bs.length), m.read (start + k) = some bs[k]

/-- The committed, unsent bytes, oldest first (R130): the slots from the read cursor on. -/
def Ring.contents (T : Ring) : List (Option Byte) := (List.range T.used).map fun k => T.buf.read ((T.tail + k) % T.size)

/-- Both cursors are indices of the array (R144 item 1). -/
def Ring.CursorsIn (T : Ring) : Prop := T.head < T.size ∧ T.tail < T.size

/-- `T'` is `T` with the bytes `bs` behind its write cursor and the write cursor behind them; the read cursor and every
other slot are as they were (R171, R138). -/
structure Ring.Appended (T T' : Ring) (bs : List Byte) : Prop where
  size : T'.size = T.size
  head : T'.head = (T.head + bs.length) % T.size
  tail : T'.tail = T.tail
  bytes : ∀ k (h : k < bs.length), T'.buf.read ((T.head + k) % T.size) = some bs[k]
  others : ∀ a, (∀ k, k < bs.length → a ≠ (T.head + k) % T.size) → T'.buf.read a = T.buf.read a

/-- `T'` is `T` but for bytes in free slots: both cursors and every slot that is not free are as they were (R168). -/
structure Ring.OnlyStale (T T' : Ring) : Prop where
  size : T'.size = T.size
  head : T'.head = T.head
  tail : T'.tail = T.tail
  others : ∀ a, (∀ k, k < T.free → a ≠ (T.head + k) % T.size) → T'.buf.read a = T.buf.read a

/-- The generator call in progress has written what it counts, within the free slots (R38, R135, R136). -/
def Ring.CallInv (T : Ring) (g : GenCall) : Prop :=
  T.lock ≠ .free ∧ ∀ n, g.prov = .count n → n ≤ T.free ∧ ∀ k, k < n → T.buf.Written (T.slot k)

/-- The invariants of a ring (R6, R144 items 1 and 3, the canonical form of its memory, R38). -/
structure Ring.Inv (T : Ring) : Prop where
  size_ge : 7 ≤ T.size
  head_lt : T.head < T.size
  tail_lt : T.tail < T.size
  buf_wf : T.buf.wf = true
  buf_below : T.buf.Below T.size
  committed : ∀ k, k < T.used → T.buf.Written ((T.tail + k) % T.size)
  call_inv : ∀ g, T.call = some g → T.CallInv g

/-- The invariants of the receiver registers of port `p` (R26, R27, R31, R32, R61, the canonical form of `RXBUF`). -/
structure Rx.Inv (c : Cfg) (p : PortId) (r : Rx) : Prop where
  port_eq : r.port = p
  buf_wf : r.buf.wf = true
  buf_below : r.buf.Below c.rxDataCap
  count_le : r.dataCount ≤ c.rxDataCap
  written : ∀ k, k < r.dataCount → r.buf.Written k
  success_lt : r.rxSuccess < 2 ^ c.cntW
  error_lt : r.rxError < 2 ^ c.cntW

/-- The invariants of a port record; a drain task exists on a transmitting port only (R13). -/
structure Port.Inv (c : Cfg) (p : PortId) (P : Port) : Prop where
  rx_inv : ∀ r, P.rx = some r → r.Inv c p
  tx_inv : ∀ T, P.tx = some T → T.Inv
  drain_tx : P.drain.isSome = true → P.tx.isSome = true

/-- The invariants of a state that every step keeps, whatever programs its agents run. -/
structure State.Inv (s : State) : Prop where
  cfg_wf : s.cfg.wf = true
  ports_le : 1 ≤ s.ports.length ∧ s.ports.length ≤ 5
  ports_inv : ∀ p P, s.port? p = some P → P.Inv s.cfg p

/-- The mid-frame state the decoder is in or remembers (R22). -/
def Rx.mid? (r : Rx) : Option MidState :=
  match r.state with
  | .mid m => some m
  | .waitSyncOrEscapedByte => some r.saved
  | .waitSync | .rxCmd => none

/-- The data counter agrees with how far the frame has come (R23 to R26: each register is written before it is read). -/
def Rx.Coherent (r : Rx) : Prop :=
  (r.state = .rxCmd → r.dataCount = 0) ∧
  match r.mid? with
  | none => True
  | some .rxSize | some .rxCrc8 => r.dataCount = 0
  | some .rxData => r.dataCount < r.dataLength.toNat
  | some .rxCrc16Hi | some .rxCrc16Lo => r.dataCount = r.dataLength.toNat

/-- Inside the drain loop the ring still holds what the loop has seen (R249): nobody else moves the read cursor. -/
def Drain.Coherent (d : Drain) (T : Ring) : Prop :=
  d.state = .draining →
    match d.line with
    | .testEmpty => True
    | .queryActive | .readRun => T.head ≠ T.tail
    | .sendRun bs | .settle bs _ => 0 < bs.length ∧ bs.length ≤ T.used

/-- A state in which every agent is one of the spec's own: the invariants hold, decoder and drain are coherent, and
what the agents have still to do is theirs to do; a drain task has nothing but its loop. -/
structure State.Good (s : State) : Prop where
  inv : s.Inv
  decoder : ∀ p r, s.rx? p = some r → r.Coherent
  drain : ∀ p d T, s.drain? p = some d → s.tx? p = some T → d.Coherent T
  programs : ∀ a i, i ∈ (s.ctx a).todo → Instr.isTask a i = true
  loops : ∀ p, (s.ctx (.drain p)).todo = []

/-- How many bytes of a list equal `SYNC`: the bytes that escape doubling adds (R98). -/
def doubled (sync : Byte) (bs : List Byte) : Nat := bs.countP (fun b => b == sync)

/-- The logical header-only frame `FRAME(cmd, [])` with its right `CRC8` (R90, R94, R123). -/
def frameOf0 (c : Cfg) (cmd : Byte) : List Byte := headerBytes c.sync cmd 0 (crc8Fold c [c.sync, cmd, 0])

/-- The `CRC8` of a header with `SIZE` for this payload (R94). -/
def headerCrc8 (c : Cfg) (cmd : Byte) (data : List Byte) : Byte := crc8Fold c [c.sync, cmd, sizeByte data]

/-- The `CRC16` of a frame with this payload (R96): over the header and the data. -/
def frameCrc16 (c : Cfg) (cmd : Byte) (data : List Byte) : Word16 :=
  crc16Fold c (headerBytes c.sync cmd (sizeByte data) (headerCrc8 c cmd data) ++ data)

/-- The logical frame `FRAME(cmd, data)` for `data` of 1 to 255 bytes (R90, R96). -/
def frameOf (c : Cfg) (cmd : Byte) (data : List Byte) : List Byte :=
  dataFrameBytes c.sync cmd (headerCrc8 c cmd data) data (frameCrc16 c cmd data)

/-- Execute operations one after the other, as one agent's uninterrupted program. -/
def execAll : List Instr → State → Result
  | [], s => .next s
  | i :: is, s =>
    match exec i s with
    | .next t => execAll is t
    | .fault e => .fault e
    | .refused e => .refused e

/-- The logical frame a generator call builds for a payload (R162 to R164). -/
def frameFor (c : Cfg) (cmd : Byte) (data : List Byte) : List Byte :=
  if data = [] then frameOf0 c cmd else frameOf c cmd data

/-- What a decoder operation on port `p` leaves: these receiver registers, these events at the end of the port's trace,
these operations in front of DecodeTask(p)'s. Everything else is as it was. -/
def State.rxNext (s : State) (p : PortId) (r : Rx) (es : List Event) (work : List Instr) : State :=
  ((s.setRx p r).emit p es).pushWork (.decode p) work

/-- What a ring operation of agent `who` on port `p` leaves: this ring, and this value returned. Everything else is as
it was. -/
def State.ringNext (s : State) (who : Agent) (p : PortId) (T : Ring) (v : Ret) : State := (s.setTx p T).setRet who v

/-- The registers after a framing error: `rx_error` moved by one modulo `2^CNT_W`, the decoder in `WaitSync` (R189). -/
def Rx.failed (c : Cfg) (r : Rx) : Rx := { r with rxError := (r.rxError + 1) % 2 ^ c.cntW, state := .waitSync }

/-- The registers after a completed frame: `rx_success` moved by one modulo `2^CNT_W`, the cached handler called, the
decoder in `WaitSync` (R190). -/
def Rx.completed (c : Cfg) (r : Rx) : Rx :=
  { r with rxSuccess := (r.rxSuccess + 1) % 2 ^ c.cntW, state := .waitSync, inHandler := r.handler }

/-- The events of a completed frame with this data on port `p` (R190 steps 1 and 2). -/
def Rx.completedEvents (p : PortId) (r : Rx) (data : List Byte) : List Event :=
  .delivered p r.cmdId r.ackRequested data ::
    (match r.handler with
     | some h => [.handlerCall p r.cmdId h data]
     | none => [])

/-- The call a completed frame leaves to make after the handler (R190 step 3, R197). -/
def Rx.completedWork (p : PortId) (r : Rx) : List Instr := if r.ackRequested then [.rxSendAck p] else []

/-- The registers after `CMD` byte `b` was accepted (R185). -/
def Rx.accepted (c : Cfg) (b : Byte) (r : Rx) : Rx :=
  { r with
    crc8 := crc8Step c b r.crc8
    crc16 := crc16Step c b r.crc16
    cmdId := cmdIdOf b
    handler := lookupDec c (cmdIdOf b).toNat
    ackRequested := cmdAckOf b
    state := .mid .rxSize }

/-- The registers at the start of a frame (R184, R122). -/
def Rx.seeded (c : Cfg) (r : Rx) : Rx :=
  { r with crc8 := crc8Step c c.sync 0x00, crc16 := crc16Step c c.sync 0xFFFF, dataCount := 0 }

/-- The bytes an event hands to the transport (R252). -/
def Event.sentBytes : Event → List Byte
  | .txBytes _ bs => bs
  | _ => []

/-- The header-only generator call written out as ring and CRC operations, line by line of R162 after its check. -/
def genHeaderOnlyLines (who : Agent) (p : PortId) (sync cmd : Byte) : List Instr :=
  [.cbDiscard who p,
   .crc8Step who (.gen p (.lit sync)), .cbWriteRaw who p (.lit sync),
   .crc8Step who (.gen p (.lit cmd)), .cbWriteEsc who p (.lit cmd),
   .crc8Step who (.gen p (.lit 0x00)), .cbWriteEsc who p (.lit 0x00),
   .cbWriteEsc who p .genCrc8,
   .cbCommit who p]

end Sys2Proof.Machine
end

