-- ==== Sys2Proof/Certificates/Slice0/Obligations.lean ====
section
/-! DEFINITION. The statements for the provers. Each docstring names the rule of spec/ it formalises, or the log entry
where it rests on the model's own choice. -/

open Sys2Proof Sys2Proof.Machine

/-! ### Encoding -/

/-- Decoding the bytes of a well-formed instruction gives it back, in the decoder's state in which they are read as
that instruction: `SYNC` in `WaitSync`, `SYNC` mid-frame, each of the 128 `CMD` bytes in `RxCmd`, both frames in every
state (R90 to R97, R103, R105; the contexts are log 17). -/
def Obligations.DecodeEncode : Prop :=
  ∀ (sync : Byte) (st : RxState) (p : PortId) (i : Instr) (bs : List Byte), i.wf = true → i.readIn p st →
    encode sync i = some bs → decode { sync := sync, state := st, port := p } bs = .instr i

/-- Bytes that are read as a `CMD` byte or as a frame are the bytes of the instruction they are read as: no bit of a
word is dropped (R90, R92, R103). -/
def Obligations.EncodeDecode : Prop :=
  ∀ (c : DecodeCtx) (bs : List Byte) (i : Instr), c.state = .rxCmd ∨ 4 ≤ bs.length → decode c bs = .instr i →
    encode c.sync i = some bs

/-- Words written out from the encoding: `SYNC` (R91), `PING` with the ack bit, `NONE`, `GETDEVICEINFO`, the unlisted
ids 5, 127 and 38 (R105, R103, R104), and the frames of the worked examples of R162 and R163. -/
def Obligations.DecodeWords : Prop :=
  decode ⟨0xA6, .waitSync, 0⟩ [0xA6] = .instr (.sync 0) ∧
  decode ⟨0xA6, .mid .rxData, 2⟩ [0xA6] = .instr (.rxByteSyncMidframe 2) ∧
  decode ⟨0xA6, .rxCmd, 0⟩ [0x82] = .instr (.cmdPing 0 true) ∧
  decode ⟨0xA6, .rxCmd, 0⟩ [0x00] = .instr (.cmdNone 0 false) ∧
  decode ⟨0xA6, .rxCmd, 1⟩ [0x11] = .instr (.cmdGetDeviceInfo 1 false) ∧
  decode ⟨0xA6, .rxCmd, 0⟩ [0x05] = .instr (.cmdUnlisted5 0 false) ∧
  decode ⟨0xA6, .rxCmd, 0⟩ [0xFF] = .instr (.cmdUnlisted127 0 true) ∧
  decode ⟨0xA6, .rxCmd, 0⟩ [0xA6] = .instr (.cmdUnlisted38 0 true) ∧
  decode ⟨0xA6, .waitSync, 0⟩ [0xA6, 0x02, 0x00, 0x1F] = .instr (.frameHeaderOnly 0 false 2 0x1F) ∧
  decode ⟨0xA6, .waitSync, 0⟩ [0xA6, 0x11, 0x03, 0x7E, 0x01, 0xA6, 0x02, 0x64, 0x97] =
    .instr (.frameWithData 0 false 17 0x7E [0x01, 0xA6, 0x02] 0x6497)

/-! ### What a step runs -/

/-- When DecodeTask(p) has no call to make and no handler is running, a step takes the next byte its transport answers
and executes the instruction that byte is in the decoder's state (R253, R254, R180). -/
def Obligations.StepRunsByte : Prop :=
  ∀ (s : State) (p : PortId) (rest : List Agent) (r : Rx) (b : Byte) (input : List RxAnswer) (i : Instr),
    s.sched = .decode p :: rest → s.rx? p = some r → r.inHandler = none → (s.ctx (.decode p)).todo = [] →
    (s.env p).input = .byte b :: input → decode (s.decodeCtx p r) [b] = .instr i →
    step s = exec i (State.takeInput { s with sched := rest } p input)

/-- An agent that has operations to execute executes the first of them; DecodeTask(p) does so when it has a receiver
and no handler is running, DrainTask(p) when the port has a drain handle (the programs of R13 as data: log 13). An operation that is another agent's to execute is
refused instead (R285, U4; log 14). -/
def Obligations.StepRunsOperation : Prop :=
  ∀ (s : State) (a : Agent) (rest : List Agent) (i : Instr) (is : List Instr),
    s.sched = a :: rest → (s.ctx a).todo = i :: is →
    (∀ p, a = .decode p → ∃ r, s.rx? p = some r ∧ r.inHandler = none) →
    (∀ p, a = .drain p → (s.drain? p).isSome = true) →
    step s = if mayExecute a i then exec i (State.setTodo { s with sched := rest } a is) else .refused .notOwner

/-- What the tasks do when they have no operation to execute: DecodeTask(p) without a byte runs a round of its loop
(R253), a handler's return makes its reply requests the task's next calls, in order (R226 item 3, log 10), a task whose
handler has not returned waits (R203, U8), DrainTask(p) wakes or runs its loop (R248, R249), and the host changes
nothing (R68). Where the unit is absent there is no such agent (R41, R255), and a turn in its name changes nothing,
whatever is listed for it (log 15). -/
def Obligations.StepTaskTurns : Prop :=
  ∀ (s : State) (p : PortId) (rest : List Agent),
    (∀ r, s.sched = .decode p :: rest → s.rx? p = some r → r.inHandler = none → (s.ctx (.decode p)).todo = [] →
      (∀ b input, (s.env p).input ≠ .byte b :: input) →
      step s = exec (.decodeTaskIteration p) { s with sched := rest }) ∧
    (∀ r h, s.sched = .decode p :: rest → s.rx? p = some r → r.inHandler = some h → (s.env p).handlerReturns = [] →
      step s = .next { s with sched := rest }) ∧
    (∀ r h replies more, s.sched = .decode p :: rest → s.rx? p = some r → r.inHandler = some h →
      (s.env p).handlerReturns = replies :: more →
      ∃ t, step s = .next t ∧ t.rx? p = some { r with inHandler := none } ∧
        (t.ctx (.decode p)).todo = replies.map (fun y => .generateAndSend (.decode p) y.cmd y.port y.data) ++
          (s.ctx (.decode p)).todo ∧
        (∀ q, t.tx? q = s.tx? q) ∧ t.sched = rest) ∧
    (∀ d, s.sched = .drain p :: rest → s.drain? p = some d → d.state = .blocked → (s.ctx (.drain p)).todo = [] →
      step s = exec (.drainWake p) { s with sched := rest }) ∧
    (∀ d, s.sched = .drain p :: rest → s.drain? p = some d → d.state = .draining → (s.ctx (.drain p)).todo = [] →
      step s = exec (.drainIteration p) { s with sched := rest }) ∧
    (s.sched = .host :: rest → (s.ctx .host).todo = [] → step s = .next { s with sched := rest }) ∧
    (s.sched = .drain p :: rest → s.drain? p = none → step s = .next { s with sched := rest }) ∧
    (s.sched = .decode p :: rest → s.rx? p = none → step s = .next { s with sched := rest })

/-! ### The decoder -/

/-- In every state of the decoder, the instruction a byte is executes as the byte step with that byte (R180, R181,
R182, R198). -/
def Obligations.ByteRowsAreByteSteps : Prop :=
  ∀ (s : State) (p : PortId) (r : Rx) (b : Byte) (i : Instr), s.rx? p = some r →
    decode (s.decodeCtx p r) [b] = .instr i → exec i s = exec (.rxStep p b) s

/-- Every one of the 128 `CMD` instructions executes as the byte step with its `CMD` byte, in every state (R92, R107,
R180). -/
def Obligations.CmdRowsAreByteSteps : Prop :=
  ∀ (i : Instr) (p : PortId) (ack : Bool) (id : BitVec 7) (s : State), i.cmdOperands = some (p, ack, id) →
    exec i s = exec (.rxStep p (cmdByte ack id)) s

/-- `WaitSync` (R183): a byte other than `SYNC` changes nothing; on `SYNC` both accumulators are seeded, the data count
is cleared and the decoder moves to `RxCmd`; no other register, memory byte, event or port changes. -/
def Obligations.WaitSync : Prop :=
  ∀ (s : State) (p : PortId) (r : Rx), s.rx? p = some r → r.state = .waitSync →
    (∀ b, b ≠ s.cfg.sync → exec (.rxWaitSync p b) s = .next s ∧ exec (.rxStep p b) s = .next s) ∧
    (∀ i, i = .sync p ∨ i = .rxWaitSync p s.cfg.sync ∨ i = .rxStep p s.cfg.sync → exec i s = .next (s.rxNext p
      { r with
        crc8 := crc8Step s.cfg s.cfg.sync 0x00
        crc16 := crc16Step s.cfg s.cfg.sync 0xFFFF
        dataCount := 0
        state := .rxCmd } [] []))

/-- `reseed` (R184): both accumulators from their fixed initial values with `SYNC` stepped in, the data count 0, and
no other register, memory byte or counter. -/
def Obligations.Reseed : Prop :=
  ∀ (s : State) (p : PortId) (r : Rx), s.rx? p = some r → exec (.rxReseed p) s = .next (s.rxNext p
    { r with
      crc8 := crc8Step s.cfg s.cfg.sync 0x00
      crc16 := crc16Step s.cfg s.cfg.sync 0xFFFF
      dataCount := 0 } [] [])

/-- `RxCmd` (R185): a byte with a nonzero id is accepted, both accumulators are stepped with the whole byte, id,
handler and ack bit are recorded, the decoder moves to `RxSize`; `0x00` and `0x80` are the framing error `InvalidCmd`.
Said of the handler row and of each of the 128 `CMD` instructions. -/
def Obligations.RxCmd : Prop :=
  ∀ (s : State) (p : PortId) (r : Rx), s.rx? p = some r → r.port = p → r.state = .rxCmd →
    (∀ b, cmdIdOf b ≠ 0 → exec (.rxRxCmd p b) s = .next (s.rxNext p
      { r with
        crc8 := crc8Step s.cfg b r.crc8
        crc16 := crc16Step s.cfg b r.crc16
        cmdId := cmdIdOf b
        handler := lookupDec s.cfg (cmdIdOf b).toNat
        ackRequested := cmdAckOf b
        state := .mid .rxSize } [] [])) ∧
    (∀ b, b = 0x00 ∨ b = 0x80 → exec (.rxRxCmd p b) s = .next (s.rxNext p
      { r with rxError := (r.rxError + 1) % 2 ^ s.cfg.cntW, state := .waitSync } [.rxError p .invalidCmd] [])) ∧
    (∀ i ack id, i.cmdOperands = some (p, ack, id) → id ≠ 0 →
      exec i s = .next (s.rxNext p (r.accepted s.cfg (cmdByte ack id)) [] [])) ∧
    (∀ ack, exec (.cmdNone p ack) s = .next (s.rxNext p (r.failed s.cfg) [.rxError p .invalidCmd] []))

/-- `RxSize` (R187): both accumulators are stepped, every value is stored as `data_length`, the decoder moves to
`RxCrc8`. -/
def Obligations.RxSize : Prop :=
  ∀ (s : State) (p : PortId) (r : Rx) (b : Byte), s.rx? p = some r → r.state = .mid .rxSize →
    exec (.rxRxSize p b) s = .next (s.rxNext p
      { r with
        crc8 := crc8Step s.cfg b r.crc8
        crc16 := crc16Step s.cfg b r.crc16
        dataLength := b
        state := .mid .rxCrc8 } [] [])

/-- `RxCrc8` (R188): a mismatch is the framing error `Crc8Mismatch`; a match steps the CRC-16 and moves to `RxData` when
data follows, and completes the frame with no data when none does, as `Complete` says (log 8, log 16). -/
def Obligations.RxCrc8 : Prop :=
  ∀ (s : State) (p : PortId) (r : Rx), s.rx? p = some r → r.port = p → r.state = .mid .rxCrc8 →
    (∀ b, b ≠ r.crc8 → exec (.rxRxCrc8 p b) s =
      .next (s.rxNext p (r.failed s.cfg) [.rxError p .crc8Mismatch] [])) ∧
    (r.dataLength ≠ 0 → exec (.rxRxCrc8 p r.crc8) s = .next (s.rxNext p
      { r with crc16 := crc16Step s.cfg r.crc8 r.crc16, state := .mid .rxData } [] [])) ∧
    (r.dataLength = 0 → exec (.rxRxCrc8 p r.crc8) s =
      .next (s.rxNext p (r.completed s.cfg) (r.completedEvents p []) (r.completedWork p)))

/-- Taking a framing error (R189, R280): `rx_error` moves by exactly one modulo `2^CNT_W`, the decoder goes to
`WaitSync`, the event is recorded; nothing is saved, no call is made, and every other register, memory byte and port
keeps its value. -/
def Obligations.FramingError : Prop :=
  ∀ (s : State) (p : PortId) (r : Rx) (cause : RxErrorCause), s.rx? p = some r → r.port = p →
    exec (.rxFail p cause) s = .next (s.rxNext p
      { r with rxError := (r.rxError + 1) % 2 ^ s.cfg.cntW, state := .waitSync } [.rxError p cause] [])

/-- Completion of a frame whose data stands in `RXBUF` (R190): `rx_success` moves by one, the frame is delivered, the
cached handler is called with the same data, the ACK is the next call when it was asked for, and the decoder is in
`WaitSync`. That the handler's call and the ACK are made by later turns of DecodeTask(p), and that `WaitSync` is written
at once, is the model's granularity (log 8, log 16). -/
def Obligations.Complete : Prop :=
  ∀ (s : State) (p : PortId) (r : Rx) (data : List Byte), s.rx? p = some r → r.port = p →
    data.length = r.dataLength.toNat → data.length ≤ s.cfg.rxDataCap → r.buf.Holds 0 data →
    exec (.rxComplete p) s = .next (s.rxNext p
      { r with
        rxSuccess := (r.rxSuccess + 1) % 2 ^ s.cfg.cntW
        state := .waitSync
        inHandler := r.handler }
      (.delivered p r.cmdId r.ackRequested data ::
        (match r.handler with
         | some h => [.handlerCall p r.cmdId h data]
         | none => []))
      (if r.ackRequested then [.rxSendAck p] else []))

/-- `RxData` (R191, R192): at `RX_DATA_CAP` the framing error `RxOverrun`, before any store; below it the byte is stored
at `data_count` and nowhere else, the count moves by one, the CRC-16 is stepped, and the last byte moves on to
`RxCrc16Hi`. -/
def Obligations.RxData : Prop :=
  ∀ (s : State) (p : PortId) (r : Rx) (b : Byte), s.rx? p = some r → r.port = p → r.state = .mid .rxData →
    (s.cfg.rxDataCap ≤ r.dataCount → exec (.rxRxData p b) s =
      .next (s.rxNext p (r.failed s.cfg) [.rxError p .rxOverrun] [])) ∧
    (r.dataCount < s.cfg.rxDataCap → ∃ m : Mem,
      exec (.rxRxData p b) s = .next (s.rxNext p
        { r with
          buf := m
          dataCount := r.dataCount + 1
          crc16 := crc16Step s.cfg b r.crc16
          state := if r.dataCount + 1 = r.dataLength.toNat then .mid .rxCrc16Hi else .mid .rxData } [] []) ∧
      m.read r.dataCount = some b ∧ ∀ a, a ≠ r.dataCount → m.read a = r.buf.read a)

/-- `RxCrc16Hi` and `RxCrc16Lo` (R193, R194): an octet that differs from its half of the accumulator is a framing error
of its own cause; the high octet moves on without stepping the accumulator, the low octet completes the frame, as
`Complete` says (log 8, log 16). -/
def Obligations.RxCrc16 : Prop :=
  ∀ (s : State) (p : PortId) (r : Rx), s.rx? p = some r → r.port = p →
    (r.state = .mid .rxCrc16Hi →
      (∀ b, b ≠ hiOctet r.crc16 → exec (.rxRxCrc16Hi p b) s =
        .next (s.rxNext p (r.failed s.cfg) [.rxError p .crc16HiMismatch] [])) ∧
      exec (.rxRxCrc16Hi p (hiOctet r.crc16)) s = .next (s.rxNext p { r with state := .mid .rxCrc16Lo } [] [])) ∧
    (r.state = .mid .rxCrc16Lo →
      (∀ b, b ≠ loOctet r.crc16 → exec (.rxRxCrc16Lo p b) s =
        .next (s.rxNext p (r.failed s.cfg) [.rxError p .crc16LoMismatch] [])) ∧
      (∀ data : List Byte, data.length = r.dataLength.toNat → data.length ≤ s.cfg.rxDataCap → r.buf.Holds 0 data →
        exec (.rxRxCrc16Lo p (loOctet r.crc16)) s =
          .next (s.rxNext p (r.completed s.cfg) (r.completedEvents p data) (r.completedWork p))))

/-- The entry dispatch and the delivery (R181, R182): a mid-frame `SYNC` is consumed, the state is remembered, the
decoder goes to `WaitSyncOrEscapedByte` and nothing else changes; any other byte goes to the handler of the state. -/
def Obligations.EntryDispatch : Prop :=
  ∀ (s : State) (p : PortId) (r : Rx), s.rx? p = some r →
    (∀ m, r.state = .mid m →
      (∀ i, i = .rxByteSyncMidframe p ∨ i = .sync p ∨ i = .rxStep p s.cfg.sync →
        exec i s = .next (s.rxNext p { r with saved := m, state := .waitSyncOrEscapedByte } [] [])) ∧
      (∀ b, b ≠ s.cfg.sync → exec (.rxStep p b) s = exec (decodeMid p b m) s)) ∧
    (r.state = .waitSync → ∀ b, exec (.rxStep p b) s = exec (.rxWaitSync p b) s) ∧
    (r.state = .rxCmd → ∀ b, exec (.rxStep p b) s = exec (.rxRxCmd p b) s) ∧
    (r.state = .waitSyncOrEscapedByte → ∀ b,
      exec (.rxStep p b) s = if b = s.cfg.sync then exec (.rxEscapeConfirmed p) s else exec (.rxAbandonRestart p b) s)

/-- Escape confirmed (R195): the remembered state is restored and its handler gets one byte `SYNC`; in `RxData` that is
one slot, one count, one CRC step, and in `RxSize` it is the length. -/
def Obligations.EscapeConfirmed : Prop :=
  ∀ (s : State) (p : PortId) (r : Rx), s.rx? p = some r → r.state = .waitSyncOrEscapedByte →
    exec (.rxEscapeConfirmed p) s = exec (decodeMid p s.cfg.sync r.saved) (s.setRx p { r with state := .mid r.saved }) ∧
    exec (.rxStep p s.cfg.sync) s = exec (.rxEscapeConfirmed p) s ∧
    (r.saved = .rxSize → exec (.rxEscapeConfirmed p) s = .next (s.rxNext p
      { r with
        crc8 := crc8Step s.cfg s.cfg.sync r.crc8
        crc16 := crc16Step s.cfg s.cfg.sync r.crc16
        dataLength := s.cfg.sync
        state := .mid .rxCrc8 } [] [])) ∧
    (r.saved = .rxData → r.dataCount < s.cfg.rxDataCap → ∃ m : Mem,
      exec (.rxEscapeConfirmed p) s = .next (s.rxNext p
        { r with
          buf := m
          dataCount := r.dataCount + 1
          crc16 := crc16Step s.cfg s.cfg.sync r.crc16
          state := if r.dataCount + 1 = r.dataLength.toNat then .mid .rxCrc16Hi else .mid .rxData } [] []) ∧
      m.read r.dataCount = some s.cfg.sync ∧ ∀ a, a ≠ r.dataCount → m.read a = r.buf.read a)

/-- A lone `SYNC` mid-frame (R196, R100): the frame in progress is abandoned without an error, the registers are seeded
as after a fresh `SYNC`, and the byte is the `CMD` byte of the new frame; a byte with id 0 counts one error for the new
frame, after the abandon (R277). -/
def Obligations.AbandonRestart : Prop :=
  ∀ (s : State) (p : PortId) (r : Rx) (b : Byte), s.rx? p = some r → r.port = p → r.state = .waitSyncOrEscapedByte →
    b ≠ s.cfg.sync →
    (∀ i, i = .rxAbandonRestart p b ∨ i = .rxStep p b →
      (cmdIdOf b ≠ 0 → exec i s = .next (s.rxNext p ((r.seeded s.cfg).accepted s.cfg b) [.abandoned p] [])) ∧
      (cmdIdOf b = 0 → exec i s = .next (s.rxNext p ((r.seeded s.cfg).failed s.cfg)
        [.abandoned p, .rxError p .invalidCmd] [])))

/-- The byte step is total (R180): from registers that keep the invariants and whose data count agrees with the frame
so far, every byte has a next state, and it leaves such registers. -/
def Obligations.ByteStepTotal : Prop :=
  ∀ (s : State) (p : PortId) (r : Rx) (b : Byte), s.rx? p = some r → r.Inv s.cfg p → r.Coherent →
    ∃ (r' : Rx) (es : List Event) (work : List Instr), exec (.rxStep p b) s = .next (s.rxNext p r' es work) ∧
      r'.Inv s.cfg p ∧ r'.Coherent

/-- No partial delivery (R199): a byte step that delivers a frame or calls a handler was in `RxCrc8` with `SIZE = 0`
and the right CRC-8, or in `RxCrc16Lo` with the right low octet (or remembered that state and confirmed an escape), and
the data it hands over is `data_length` bytes, each what `RXBUF` holds. -/
def Obligations.NoPartialDelivery : Prop :=
  ∀ (s t : State) (p : PortId) (P Q : Port) (r : Rx) (b : Byte), s.port? p = some P → P.rx = some r →
    exec (.rxStep p b) s = .next t → t.port? p = some Q →
    ∀ (q : PortId) (id : BitVec 7) (ack : Bool) (h : Handler) (data : List Byte),
      .delivered q id ack data ∈ Q.trace.drop P.trace.length ∨
        .handlerCall q id h data ∈ Q.trace.drop P.trace.length →
      (r.mid? = some .rxCrc8 ∧ r.dataLength = 0 ∧ b = r.crc8 ∨ r.mid? = some .rxCrc16Lo ∧ b = loOctet r.crc16) ∧
        data.length = r.dataLength.toNat ∧ r.buf.Holds 0 data

/-- Round trip (R201 items 2 and 4, R107): a frame with its right CRCs, whose `CMD` is not `SYNC` and has a nonzero id,
arriving in `WaitSync`, is delivered once with its id, its ack bit and its data, `rx_success` moves by one, `rx_error`
does not, the handler of its id is called if there is one, the ACK is the next call if it was asked for, the decoder is
in `WaitSync`, and `RXBUF` outside the data keeps its bytes. Both frame rows. -/
def Obligations.RoundTrip : Prop :=
  ∀ (s : State) (p : PortId) (r : Rx) (ack : Bool) (id : BitVec 7) (data : List Byte),
    s.cfg.wf = true → s.rx? p = some r → r.Inv s.cfg p → r.state = .waitSync → r.inHandler = none → id ≠ 0 →
    cmdByte ack id ≠ s.cfg.sync → data.length ≤ 255 → data.length ≤ s.cfg.rxDataCap →
    ∀ i, i = (if data = [] then
        .frameHeaderOnly p ack id (headerCrc8 s.cfg (cmdByte ack id) [])
      else
        .frameWithData p ack id (headerCrc8 s.cfg (cmdByte ack id) data) data
          (frameCrc16 s.cfg (cmdByte ack id) data)) →
    ∃ r' : Rx, exec i s = .next (s.rxNext p r'
        (.delivered p id ack data ::
          (match lookupDec s.cfg id.toNat with
           | some h => [.handlerCall p id h data]
           | none => []))
        (if ack then [.rxSendAck p] else [])) ∧
      r'.state = .waitSync ∧ r'.rxSuccess = (r.rxSuccess + 1) % 2 ^ s.cfg.cntW ∧ r'.rxError = r.rxError ∧
      r'.port = r.port ∧ r'.inHandler = lookupDec s.cfg id.toNat ∧ r'.cmdId = id ∧ r'.ackRequested = ack ∧
      r'.dataLength.toNat = data.length ∧ r'.buf.Holds 0 data ∧
      ∀ a, data.length ≤ a → r'.buf.read a = r.buf.read a

/-- A frame with a wrong check byte other than `SYNC` (R201 item 3): the wrong CRC-8 of a header-only frame and the
wrong low octet of a data frame's CRC-16 move `rx_error` by one and leave the decoder in `WaitSync`; nothing is
delivered, `rx_success` does not move, no call is made. -/
def Obligations.CorruptFrame : Prop :=
  ∀ (s : State) (p : PortId) (r : Rx) (ack : Bool) (id : BitVec 7),
    s.cfg.wf = true → s.rx? p = some r → r.Inv s.cfg p → r.state = .waitSync → r.inHandler = none → id ≠ 0 →
    cmdByte ack id ≠ s.cfg.sync →
    (∀ x : Byte, x ≠ headerCrc8 s.cfg (cmdByte ack id) [] → x ≠ s.cfg.sync →
      ∃ r' : Rx, exec (.frameHeaderOnly p ack id x) s = .next (s.rxNext p r' [.rxError p .crc8Mismatch] []) ∧
        r'.state = .waitSync ∧ r'.rxError = (r.rxError + 1) % 2 ^ s.cfg.cntW ∧ r'.rxSuccess = r.rxSuccess ∧
        r'.buf = r.buf) ∧
    (∀ (data : List Byte) (lo : Byte), data ≠ [] → data.length ≤ 255 → data.length ≤ s.cfg.rxDataCap →
      lo ≠ loOctet (frameCrc16 s.cfg (cmdByte ack id) data) → lo ≠ s.cfg.sync →
      ∃ r' : Rx, exec (.frameWithData p ack id (headerCrc8 s.cfg (cmdByte ack id) data) data
          (hiOctet (frameCrc16 s.cfg (cmdByte ack id) data) ++ lo)) s =
            .next (s.rxNext p r' [.rxError p .crc16LoMismatch] []) ∧
        r'.state = .waitSync ∧ r'.rxError = (r.rxError + 1) % 2 ^ s.cfg.cntW ∧ r'.rxSuccess = r.rxSuccess)

/-- The ACK (R197, R109): on a free ring with at least 6 free bytes the header-only frame of `CMD = 0x01` is appended
whole and the signal is the next operation; with fewer, the ring keeps both cursors and every slot that is not free;
without a buffer nothing happens; the receiver is as it was. On a held lock DecodeTask(p) waits (log 13). -/
def Obligations.SendAck : Prop :=
  ∀ (s : State) (p : PortId), s.cfg.wf = true →
    (s.tx? p = none → exec (.rxSendAck p) s = .next (s.setRet (.decode p) (.bool false))) ∧
    ∀ T, s.tx? p = some T → T.CursorsIn →
      (∀ x, T.lock = .held x → exec (.rxSendAck p) s = .next (s.waitAt (.decode p) (.rxSendAck p))) ∧
      (T.lock = .free → 6 ≤ T.free → ∃ T' : Ring,
        exec (.rxSendAck p) s = .next ((((s.setTx p T').emit p [.genOk p 0x01 0]).setRet (.decode p)
          (.bool true)).pushWork (.decode p) [.signal p]) ∧
        T.Appended T' (wire s.cfg.sync (frameOf0 s.cfg 0x01)) ∧ T'.lock = .free ∧ T'.call = none) ∧
      (T.lock = .free → T.free < 6 → ∃ T' : Ring,
        exec (.rxSendAck p) s = .next (((s.setTx p T').emit p [.genFail p 0x01 0 .noSpaceUpFront]).setRet
          (.decode p) (.bool false)) ∧
        T.OnlyStale T' ∧ T'.lock = .free ∧ T'.call = none)

/-- The decoder never touches a ring, a signal, a drain task or another port (R202): what an instruction of the receiver
of port `p` leaves of everything but that receiver, the port's trace and DecodeTask(p)'s calls. -/
def Obligations.DecoderFrame : Prop :=
  ∀ (i : Instr) (p : PortId) (s t : State), i.rxPort? = some p → exec i s = .next t →
    t.cfg = s.cfg ∧ t.sched = s.sched ∧ t.freeIx = s.freeIx ∧ (∀ a, a ≠ .decode p → t.ctx a = s.ctx a) ∧
    (∀ q, q ≠ p → t.port? q = s.port? q) ∧
    ∀ P, s.port? p = some P → ∃ Q, t.port? p = some Q ∧ Q = { P with rx := Q.rx, trace := Q.trace }

/-- Nobody but DecodeTask(p) touches the receiver of port `p` (R71, R203, R285, R316): every instruction that is not one
of the decoder's, and has a next state, leaves every port's receiver registers and `RXBUF` as they were; a step of
another agent leaves those of port `p`; and another agent whose next operation is one of DecodeTask(p)'s is refused
(U4; log 14). -/
def Obligations.ReceiverOwnership : Prop :=
  (∀ (i : Instr) (s t : State), i.rxPort? = none → (∀ p, i ≠ .decodeTaskIteration p) → exec i s = .next t →
    ∀ q, t.rx? q = s.rx? q) ∧
  (∀ (s t : State) (a : Agent) (rest : List Agent) (p : PortId), s.sched = a :: rest → a ≠ .decode p →
    step s = .next t → t.rx? p = s.rx? p) ∧
  ∀ (s : State) (a : Agent) (rest : List Agent) (p : PortId) (i : Instr) (is : List Instr), s.sched = a :: rest →
    a ≠ .decode p → (s.ctx a).todo = i :: is →
    (∀ q, a = .decode q → ∃ r, s.rx? q = some r ∧ r.inHandler = none) →
    (∀ q, a = .drain q → (s.drain? q).isSome = true) →
    i.rxPort? = some p ∨ i = .decodeTaskIteration p ∨ i = .rxSendAck p → step s = .refused .notOwner

/-! ### The CRC engine -/

/-- The CRC operations (R120, R121): on values they return the step function's value and write nothing; as a line of a
generator call (R39, R162, R163) they step that call's accumulator and nothing else, and start the call where there is
none (log 29). -/
def Obligations.CrcSteps : Prop :=
  ∀ (s : State) (who : Agent),
    (∀ b acc, exec (.crc8Step who (.value b acc)) s = .next (s.setRet who (.byte (crc8Step s.cfg b acc)))) ∧
    (∀ b acc, exec (.crc16Step who (.value b acc)) s = .next (s.setRet who (.word (crc16Step s.cfg b acc)))) ∧
    ∀ p T src, s.tx? p = some T → T.lock = .held who →
      exec (.crc8Step who (.gen p src)) s = .next (s.ringNext who p
        { T with call := some { T.theCall with crc8 := crc8Step s.cfg (byteOf T src) T.theCall.crc8 } }
        (.byte (crc8Step s.cfg (byteOf T src) T.theCall.crc8))) ∧
      exec (.crc16Step who (.gen p src)) s = .next (s.ringNext who p
        { T with call := some { T.theCall with crc16 := crc16Step s.cfg (byteOf T src) T.theCall.crc16 } }
        (.word (crc16Step s.cfg (byteOf T src) T.theCall.crc16)))

/-- The default CRC-16 step in its table form (R125): the accumulator moved up by a byte, exclusive-or the step of its
high octet exclusive-or the byte, from 0. -/
def Obligations.Crc16TableForm : Prop :=
  ∀ (b : Byte) (acc : Word16), crc16Ccitt b acc = (acc <<< 8) ^^^ crc16Ccitt (hiOctet acc ^^^ b) 0x0000

/-! ### The circular transmit buffer -/

/-- The counts of a ring whose cursors are indices of its array (R131): the used and the free count by the cursors;
with the one open slot they are all the slots, and empty and full are told apart by them. -/
def Obligations.RingCounts : Prop :=
  ∀ T : Ring, T.CursorsIn → (T.used : Int) = ((T.head : Int) - T.tail) % T.size ∧
    (T.free : Int) = ((T.tail : Int) - T.head - 1) % T.size ∧ T.used + T.free = T.size - 1 ∧ T.used < T.size ∧ T.free < T.size ∧
    (T.isEmpty = true ↔ T.head = T.tail) ∧ (T.isEmpty = true ↔ T.used = 0) ∧ (T.isFull = true ↔ T.free = 0)

/-- The lock (R132, R133): a claim of a free ring takes it for the caller, a release by its holder frees it; cursors
and every byte stay. A claim of a held ring has no step: the operation stays the caller's next one and nothing else
changes, also for the holder itself (log 13). -/
def Obligations.RingLock : Prop :=
  ∀ (s : State) (who : Agent) (p : PortId) (T : Ring), s.tx? p = some T →
    (T.lock = .free → exec (.cbClaim who p) s =
      .next (s.ringNext who p { T with lock := .held who, call := none } .nothing)) ∧
    (∀ x, T.lock = .held x → exec (.cbClaim who p) s = .next (s.waitAt who (.cbClaim who p))) ∧
    (T.lock = .held who → exec (.cbRelease who p) s =
      .next (s.ringNext who p { T with lock := .free, call := none } .nothing))

/-- The queries of a ring (R134, R140, R141), by the agents that may read the cursors (R285): the free count, emptiness,
and the run from the read cursor to the write cursor or to the end of the array; they write nothing. -/
def Obligations.RingQueries : Prop :=
  ∀ (s : State) (who : Agent) (p : PortId) (T : Ring), s.tx? p = some T → T.lock = .held who ∨ who = .drain p →
    exec (.cbFree who p) s = .next (s.setRet who (.nat (((T.tail : Int) - T.head - 1) % T.size).toNat)) ∧
    exec (.cbIsEmpty who p) s = .next (s.setRet who (.bool (decide (T.head = T.tail)))) ∧
    (T.tail ≤ T.head → exec (.cbReadableRun who p) s = .next (s.setRet who (.run T.tail (T.head - T.tail)))) ∧
    (T.head < T.tail → exec (.cbReadableRun who p) s = .next (s.setRet who (.run T.tail (T.size - T.tail))))

/-- `cb_write_raw` (R135): with room, the byte goes to the slot of the provisional count, doubled never, and the count
moves by one; both cursors, the lock, the accumulators and every other slot stay; without room the count is poisoned
and nothing is written; a poisoned count stays so. -/
def Obligations.WriteRaw : Prop :=
  ∀ (s : State) (who : Agent) (p : PortId) (T : Ring) (src : ByteSrc), s.tx? p = some T → T.lock = .held who →
    (T.theCall.prov = .poison →
      exec (.cbWriteRaw who p src) s = .next (s.ringNext who p { T with call := some T.theCall } (.prov .poison))) ∧
    ∀ n, T.theCall.prov = .count n →
      (n + 1 ≤ T.free → ∃ m : Mem,
        exec (.cbWriteRaw who p src) s = .next (s.ringNext who p
          { T with buf := m, call := some { T.theCall with prov := .count (n + 1) } } (.prov (.count (n + 1)))) ∧
        m.read ((T.head + n) % T.size) = some (byteOf T src) ∧
        ∀ a, a ≠ (T.head + n) % T.size → m.read a = T.buf.read a) ∧
      (T.free < n + 1 → exec (.cbWriteRaw who p src) s = .next (s.ringNext who p
        { T with call := some { T.theCall with prov := .poison } } (.prov .poison)))

/-- `cb_write_esc` (R136): a byte other than `SYNC` takes one slot, `SYNC` two in a row; without room for all of it the
count is poisoned and nothing is written; a poisoned count stays so; both cursors, the lock, the accumulators and every
other slot stay. -/
def Obligations.WriteEsc : Prop :=
  ∀ (s : State) (who : Agent) (p : PortId) (T : Ring) (src : ByteSrc), s.tx? p = some T → T.lock = .held who →
    (T.theCall.prov = .poison →
      exec (.cbWriteEsc who p src) s = .next (s.ringNext who p { T with call := some T.theCall } (.prov .poison))) ∧
    ∀ (n need : Nat), T.CursorsIn → T.theCall.prov = .count n →
      need = (if byteOf T src = s.cfg.sync then 2 else 1) →
      (n + need ≤ T.free → ∃ m : Mem,
        exec (.cbWriteEsc who p src) s = .next (s.ringNext who p
          { T with buf := m, call := some { T.theCall with prov := .count (n + need) } } (.prov (.count (n + need)))) ∧
        (∀ j, j < need → m.read ((T.head + (n + j)) % T.size) = some (byteOf T src)) ∧
        ∀ a, (∀ j, j < need → a ≠ (T.head + (n + j)) % T.size) → m.read a = T.buf.read a) ∧
      (T.free < n + need → exec (.cbWriteEsc who p src) s = .next (s.ringNext who p
        { T with call := some { T.theCall with prov := .poison } } (.prov .poison)))

/-- Poison is sticky (R137): every later provisional write of the call returns `POISON` and writes no slot, and the
commit answers false with both cursors and every slot as they were. -/
def Obligations.PoisonSticky : Prop :=
  ∀ (s : State) (who : Agent) (p : PortId) (T : Ring), s.tx? p = some T → T.lock = .held who →
    T.theCall.prov = .poison →
    (∀ src i, i = .cbWriteRaw who p src ∨ i = .cbWriteEsc who p src →
      exec i s = .next (s.ringNext who p { T with call := some T.theCall } (.prov .poison))) ∧
    exec (.cbCommit who p) s = .next (s.ringNext who p { T with call := none } (.bool false))

/-- `cb_commit` (R138): a commit of a count moves the write cursor by it, modulo the size, in one step, and answers
true: the committed bytes are the old ones followed by the written ones; a commit of a poisoned count answers false and
moves nothing. No slot changes. -/
def Obligations.Commit : Prop :=
  ∀ (s : State) (who : Agent) (p : PortId) (T : Ring), s.tx? p = some T → T.Inv → T.lock = .held who →
    (T.theCall.prov = .poison →
      exec (.cbCommit who p) s = .next (s.ringNext who p { T with call := none } (.bool false))) ∧
    ∀ n, T.theCall.prov = .count n → ∃ T' : Ring,
      T' = { T with head := (T.head + n) % T.size, call := none } ∧
      exec (.cbCommit who p) s = .next (s.ringNext who p T' (.bool true)) ∧
      T'.used = T.used + n ∧
      T'.contents = T.contents ++ (List.range n).map (fun k => T.buf.read ((T.head + k) % T.size))

/-- Discard (R139; as a step of its own it is the model's choice, log 30): by the holder of the lock the generator call
is dropped, so that the next write starts a new one, and both cursors, the lock and every slot stay. -/
def Obligations.Discard : Prop :=
  ∀ (s : State) (who : Agent) (p : PortId) (T : Ring), s.tx? p = some T → T.lock = .held who → ∃ T' : Ring,
    T' = { T with call := none } ∧ exec (.cbDiscard who p) s = .next (s.ringNext who p T' .nothing) ∧
    T'.contents = T.contents ∧ T'.theCall = GenCall.start

/-- `cb_read_run` (R142): the drain task gets the bytes of a run of committed slots, and the read cursor and every slot
stay. The runs of R141 are such runs; that another run of committed slots is read too is the model's choice (log 34). -/
def Obligations.ReadRun : Prop :=
  ∀ (s : State) (p : PortId) (T : Ring) (start : Nat) (bs : List Byte), s.tx? p = some T → T.buf.Holds start bs →
    start + bs.length ≤ T.size → (∀ k, k < bs.length → ∃ j, j < T.used ∧ start + k = (T.tail + j) % T.size) →
    exec (.cbReadRun (.drain p) p start bs.length) s = .next (s.setRet (.drain p) (.bytes bs))

/-- `cb_advance` (R143): the read cursor of the drain task moves by `n` modulo the size, `n` slots become free, the
committed bytes lose their `n` oldest; no slot and not the write cursor change. -/
def Obligations.Advance : Prop :=
  ∀ (s : State) (p : PortId) (T : Ring) (n : Nat), s.tx? p = some T → T.CursorsIn → 0 < n → n ≤ T.used →
    ∃ T' : Ring, T' = { T with tail := (T.tail + n) % T.size } ∧
      exec (.cbAdvance (.drain p) p n) s = .next (s.ringNext (.drain p) p T' .nothing) ∧
      T'.free = T.free + n ∧ T'.contents = T.contents.drop n

/-- Misuse of a ring is refused by name (R147, R285, U4; the names, and what is taken as misuse beyond R147's list, are
the model's, log 14): a provisional write, a commit, a discard, a release or a generator call by an agent that does not
hold the lock, an advance by another agent than the drain task, by 0 or by more than is used, a read of the cursors or
of committed bytes by an agent that R285 does not let read them, and a read of a run inside the array with a slot that
is not committed (log 34). -/
def Obligations.MisuseRefused : Prop :=
  ∀ (s : State) (who : Agent) (p : PortId) (T : Ring), s.tx? p = some T →
    (T.lock ≠ .held who → ∀ i, (∃ src, i = .cbWriteRaw who p src ∨ i = .cbWriteEsc who p src) ∨ i = .cbCommit who p ∨
        i = .cbDiscard who p ∨ i = .cbRelease who p ∨ (∃ cmd, i = .genHeaderOnly who p cmd) ∨
        (∃ cmd data, i = .genGeneric who p cmd data) ∨ (∃ src, i = .crc8Step who (.gen p src)) ∨
        (∃ src, i = .crc16Step who (.gen p src)) → exec i s = .refused .notLockHolder) ∧
    (who ≠ .drain p → ∀ n start len, exec (.cbAdvance who p n) s = .refused .notDrainTask ∧
      exec (.cbReadRun who p start len) s = .refused .notOwner) ∧
    (∀ start len k, start + len ≤ T.size → k < len → (∀ j, j < T.used → start + k ≠ (T.tail + j) % T.size) →
      exec (.cbReadRun (.drain p) p start len) s = .refused .notCommitted) ∧
    (∀ n, n = 0 ∨ T.used < n → exec (.cbAdvance (.drain p) p n) s = .refused .badAdvance) ∧
    (T.lock ≠ .held who → who ≠ .drain p → exec (.cbFree who p) s = .refused .notOwner ∧
      exec (.cbIsEmpty who p) s = .refused .notOwner ∧ exec (.cbReadableRun who p) s = .refused .notOwner)

/-- Operations on a unit a port does not have are refused by name (R20, R36, R41, R255; the model's choice, log 15), and
a completion, or a read of a run of committed slots or past the end of the array, whose first byte nothing has written
since reset faults with its index (U5; the model's choice, log 7, log 24, log 34). -/
def Obligations.AbsentUnits : Prop :=
  ∀ s : State,
    (∀ i p, i.rxPort? = some p → s.rx? p = none → exec i s = .refused .noReceiver) ∧
    (∀ p, s.rx? p = none → exec (.decodeTaskIteration p) s = .refused .noReceiver) ∧
    (∀ i p, i.ringPort? = some p → s.tx? p = none → exec i s = .refused .noBuffer) ∧
    (∀ p cause i, i = .drainWake p ∨ i = .drainIteration p ∨ i = .drainAbort p cause → s.drain? p = none →
      exec i s = .refused .noDrain) ∧
    (∀ p r, s.rx? p = some r → r.dataLength ≠ 0 → 0 < s.cfg.rxDataCap → r.buf.read 0 = none →
      exec (.rxComplete p) s = .fault (.unwrittenByte (.rxbuf r.port) 0)) ∧
    (∀ p T start len, s.tx? p = some T → start < T.size → 0 < len → T.buf.read start = none →
      (start + len ≤ T.size → ∀ k, k < len → ∃ j, j < T.used ∧ start + k = (T.tail + j) % T.size) →
      exec (.cbReadRun (.drain p) p start len) s = .fault (.unwrittenByte (.txbuf p) start))

/-- A write cursor moves in a commit only, a read cursor in an advance only (R144 item 5): the operations that contain
one are the only ones that may leave another cursor, and no operation changes the size of a ring (R6) or takes a ring
away. Who moves them (R73 items 2 and 3, R285, R316): a step of an agent other than DrainTask(p) leaves the read cursor
of port `p`, the drain task's control state, and a signal that is pending; while an agent holds the lock, a step of
another agent leaves the write cursor. -/
def Obligations.CursorMoves : Prop :=
  (∀ (i : Instr) (s t : State) (p : PortId) (T : Ring), exec i s = .next t → s.tx? p = some T →
    ∃ T' : Ring, t.tx? p = some T' ∧ T'.size = T.size ∧ (T'.head ≠ T.head → i.commits = true) ∧
      (T'.tail ≠ T.tail → i.advances = true)) ∧
  ∀ (s t : State) (a : Agent) (rest : List Agent) (p : PortId) (P : Port), s.sched = a :: rest → step s = .next t →
    s.port? p = some P → ∃ Q, t.port? p = some Q ∧
      (a ≠ .drain p → Q.tx.map Ring.tail = P.tx.map Ring.tail ∧ Q.drain = P.drain ∧
        (P.pending = true → Q.pending = true)) ∧
      ∀ T x, P.tx = some T → T.lock = .held x → x ≠ a → ∃ T', Q.tx = some T' ∧ T'.head = T.head ∧ T'.lock = .held x

/-! ### The frame encoder -/

/-- `gen_header_only` (R162, R171): on a held ring with at least 6 free bytes it appends exactly the wire form of
`FRAME(cmd, [])`, answers true and keeps the lock; nothing else changes. It never fails late. -/
def Obligations.GenHeaderOnly : Prop :=
  ∀ (s : State) (who : Agent) (p : PortId) (cmd : Byte) (T : Ring), s.cfg.wf = true → s.tx? p = some T → T.CursorsIn →
    T.lock = .held who → 6 ≤ T.free → ∃ T' : Ring,
      exec (.genHeaderOnly who p cmd) s =
        .next (((s.setTx p T').emit p [.genOk p cmd 0]).setRet who (.bool true)) ∧
      T.Appended T' (wire s.cfg.sync (frameOf0 s.cfg cmd)) ∧ T'.lock = T.lock ∧ T'.call = none

/-- `gen_generic` (R163, R164, R171): on a held ring that has room for the worst case without doubling and for the wire
frame itself it appends exactly the wire form of `FRAME(cmd, data)`, the header-only frame for no data, answers true
and keeps the lock; nothing else changes. -/
def Obligations.GenGeneric : Prop :=
  ∀ (s : State) (who : Agent) (p : PortId) (cmd : Byte) (data : List Byte) (T : Ring), s.tx? p = some T →
    T.CursorsIn → T.lock = .held who → data.length ≤ 255 → data.length + 6 ≤ T.free →
    (wire s.cfg.sync (frameFor s.cfg cmd data)).length ≤ T.free → ∃ T' : Ring,
      exec (.genGeneric who p cmd data) s =
        .next (((s.setTx p T').emit p [.genOk p cmd data.length]).setRet who (.bool true)) ∧
      T.Appended T' (wire s.cfg.sync (frameFor s.cfg cmd data)) ∧ T'.lock = T.lock ∧ T'.call = none

/-- The failures of the generator in the order of its tests (R165, R161, R167, R168, R278): too long, no room for the
worst case without doubling, no room for the doubled bytes. Each answers false with its cause and leaves both cursors
and every slot that is not free as they were; the first two write nothing at all. -/
def Obligations.GenFails : Prop :=
  ∀ (s : State) (who : Agent) (p : PortId) (cmd : Byte) (data : List Byte) (T : Ring), s.tx? p = some T →
    T.CursorsIn → T.lock = .held who →
    (255 < data.length → exec (.genGeneric who p cmd data) s = .next (((s.setTx p { T with call := none }).emit p
      [.genFail p cmd data.length .tooLong]).setRet who (.bool false))) ∧
    (data.length ≤ 255 → T.free < data.length + 6 → exec (.genGeneric who p cmd data) s =
      .next (((s.setTx p { T with call := none }).emit p
        [.genFail p cmd data.length .noSpaceUpFront]).setRet who (.bool false))) ∧
    (T.free < 6 → exec (.genHeaderOnly who p cmd) s = .next (((s.setTx p { T with call := none }).emit p
      [.genFail p cmd 0 .noSpaceUpFront]).setRet who (.bool false))) ∧
    (data.length ≤ 255 → data.length + 6 ≤ T.free →
      T.free < (wire s.cfg.sync (frameFor s.cfg cmd data)).length → ∃ T' : Ring,
        exec (.genGeneric who p cmd data) s = .next (((s.setTx p T').emit p
          [.genFail p cmd data.length .noSpaceLate]).setRet who (.bool false)) ∧
        T.OnlyStale T' ∧ T'.lock = T.lock ∧ T'.call = none)

/-- The header-only generator call as one step is the sequence of its lines, each a step of its own (R162; R72 allows
the coarser step, log 8): both leave the same state, but for the event the coarse step records. -/
def Obligations.GenLinesRefine : Prop :=
  ∀ (s : State) (who : Agent) (p : PortId) (cmd : Byte) (T : Ring), s.cfg.wf = true → s.tx? p = some T → T.CursorsIn →
    T.lock = .held who → 6 ≤ T.free → ∃ t : State,
      execAll (genHeaderOnlyLines who p s.cfg.sync cmd) s = .next t ∧
      exec (.genHeaderOnly who p cmd) s = .next (t.emit p [.genOk p cmd 0])

/-! ### The port and transmission manager -/

/-- `generate_and_send` before and at the claim (R241 steps 1 to 3, R278): without a port or a buffer, and without a
generator for the id, it answers false and touches nothing, the lock neither; on a held lock the caller waits: the
operation stays its next one (log 13). -/
def Obligations.SendNotStarted : Prop :=
  ∀ (s : State) (who : Agent) (cmd : Byte) (p : PortId) (data : List Byte),
    (s.tx? p = none → exec (.generateAndSend who cmd p data) s = .next (s.setRet who (.bool false))) ∧
    ∀ T, s.tx? p = some T →
      (lookupGen s.cfg (cmdIdOf cmd).toNat = none →
        exec (.generateAndSend who cmd p data) s = .next (s.setRet who (.bool false))) ∧
      (∀ g x, lookupGen s.cfg (cmdIdOf cmd).toNat = some g → T.lock = .held x →
        exec (.generateAndSend who cmd p data) s = .next (s.waitAt who (.generateAndSend who cmd p data)))

/-- `generate_and_send` on a free ring (R241 steps 3 to 7, R227): when the frame of the generator's payload fits, it is
appended whole, the lock is free again, the answer is true and the signal is the caller's next operation; when it does
not, the answer is false, both cursors and every slot that is not free are as they were, the lock is free again and
nothing is signalled. A payload from device state uses up one free value (log 11). -/
def Obligations.SendFrame : Prop :=
  ∀ (s : State) (who : Agent) (cmd : Byte) (p : PortId) (data payload : List Byte) (T : Ring) (g : Generator),
    s.cfg.wf = true → s.tx? p = some T → T.CursorsIn → T.lock = .free →
    lookupGen s.cfg (cmdIdOf cmd).toNat = some g →
    payload = (match g with
      | .headerOnly => []
      | .caller => data
      | .device => (Config.devicePayload (cmdIdOf cmd).toNat s.freeIx).take 255) →
    ∃ s₀ : State, s₀ = { s with freeIx := if g = .device then s.freeIx + 1 else s.freeIx } ∧
    (payload.length ≤ 255 → payload.length + 6 ≤ T.free →
      (wire s.cfg.sync (frameFor s.cfg cmd payload)).length ≤ T.free → ∃ T' : Ring,
        exec (.generateAndSend who cmd p data) s =
          .next ((((s₀.setTx p T').emit p [.genOk p cmd payload.length]).setRet who (.bool true)).pushWork who
            [.signal p]) ∧
        T.Appended T' (wire s.cfg.sync (frameFor s.cfg cmd payload)) ∧ T'.lock = .free ∧ T'.call = none) ∧
    (255 < payload.length ∨ T.free < payload.length + 6 ∨
        T.free < (wire s.cfg.sync (frameFor s.cfg cmd payload)).length → ∃ (T' : Ring) (cause : CapacityCause),
        exec (.generateAndSend who cmd p data) s =
          .next (((s₀.setTx p T').emit p [.genFail p cmd payload.length cause]).setRet who (.bool false)) ∧
        T.OnlyStale T' ∧ T'.lock = .free ∧ T'.call = none)

/-- `signal(p)` (R246, R247): with a drain task `pending` is set, whatever it was; without one, and without a port,
nothing happens. -/
def Obligations.Signal : Prop :=
  ∀ (s : State) (p : PortId),
    (s.drain? p = none → exec (.signal p) s = .next s) ∧
    (∀ P, s.port? p = some P → P.drain.isSome = true → ∃ t, exec (.signal p) s = .next t ∧
      t.port? p = some { P with pending := true, trace := P.trace ++ [.signal p] } ∧
      (∀ q, q ≠ p → t.port? q = s.port? q) ∧ t.ctxs = s.ctxs ∧ t.cfg = s.cfg)

/-- Wake (R248): a blocked drain task with `pending` set clears it and enters its loop; nothing else changes. A task
that is not blocked or has no signal pending has no such step: the state stays (log 27). -/
def Obligations.Wake : Prop :=
  ∀ (s : State) (p : PortId) (P : Port) (d : Drain), s.port? p = some P → P.drain = some d →
    (d.state = .blocked → P.pending = true → ∃ t, exec (.drainWake p) s = .next t ∧
      t.port? p = some { P with pending := false, drain := some { state := .draining, line := .testEmpty } } ∧
      (∀ q, q ≠ p → t.port? q = s.port? q) ∧ t.ctxs = s.ctxs ∧ t.cfg = s.cfg) ∧
    (d.state = .draining ∨ P.pending = false → exec (.drainWake p) s = .next s)

/-- The numbered lines of the drain loop (R249), each one step (R72): the emptiness test, the `is_active` query, the
read of the whole readable run, the bracketed `send` with its timeout token, and the advance with `TxBytes` or the
abort. The next line is held in `drain.line` (log 20). -/
def Obligations.DrainLines : Prop :=
  ∀ (s : State) (p : PortId) (P : Port) (d : Drain) (T : Ring), s.port? p = some P → P.drain = some d →
    P.tx = some T → d.state = .draining →
    (d.line = .testEmpty → T.head = T.tail → exec (.drainIteration p) s =
      .next (s.setDrain p { state := .blocked, line := .testEmpty })) ∧
    (d.line = .testEmpty → T.head ≠ T.tail → exec (.drainIteration p) s =
      .next (s.setDrain p { state := .draining, line := .queryActive })) ∧
    (∀ a rest, d.line = .queryActive → P.env.active = a :: rest → ∃ t, exec (.drainIteration p) s = .next t ∧
      t.port? p = some { P with
        env := { P.env with active := rest }
        calls := P.calls ++ [.isActive]
        drain := some (if a then { state := .draining, line := .readRun } else { state := .blocked, line := .testEmpty })
        trace := P.trace ++ (if a then [] else [.drainAbort p .inactive]) }) ∧
    (∀ bs, d.line = .readRun → T.CursorsIn → T.buf.Holds T.tail bs →
      bs.length = (if T.tail ≤ T.head then T.head - T.tail else T.size - T.tail) →
      exec (.drainIteration p) s = .next (s.setDrain p { state := .draining, line := .sendRun bs })) ∧
    (∀ bs ok rest, d.line = .sendRun bs → P.env.sends = ok :: rest → ∃ t, exec (.drainIteration p) s = .next t ∧
      t.port? p = some { P with
        env := { P.env with sends := rest }
        calls := P.calls ++ [.claim, .send bs P.txTimeout, .release]
        drain := some { state := .draining, line := .settle bs ok } }) ∧
    (∀ bs, d.line = .settle bs true → 0 < bs.length → bs.length ≤ T.used → ∃ t, exec (.drainIteration p) s = .next t ∧
      t.port? p = some { P with
        tx := some { T with tail := (T.tail + bs.length) % T.size }
        trace := P.trace ++ [.txBytes p bs]
        drain := some { state := .draining, line := .testEmpty } }) ∧
    (∀ bs, d.line = .settle bs false → ∃ t, exec (.drainIteration p) s = .next t ∧
      t.port? p = some { P with
        trace := P.trace ++ [.drainAbort p .sendFailed]
        drain := some { state := .blocked, line := .testEmpty } })

/-- Abort: the drain goes to `Blocked`, the abort is observed, and the ring keeps its read cursor and every byte; nothing
is counted and no signal is set, as R250 and R273 say of the exits at lines 2 and 5 of the loop. That the row, run as an
operation of its own, leaves the loop from any line and with the cause it names is the model's choice (log 27). -/
def Obligations.DrainAborts : Prop :=
  ∀ (s : State) (p : PortId) (P : Port) (d : Drain) (cause : DrainCause), s.port? p = some P → P.drain = some d →
    d.state = .draining → ∃ t, exec (.drainAbort p cause) s = .next t ∧
      t.port? p = some { P with
        drain := some { state := .blocked, line := .testEmpty }
        trace := P.trace ++ [.drainAbort p cause] } ∧
      (∀ q, q ≠ p → t.port? q = s.port? q) ∧ t.ctxs = s.ctxs ∧ t.cfg = s.cfg

/-- A drain that has woken empties its ring when nobody commits meanwhile and its transport is active and sends (R249,
R252): after two rounds of the loop and its last test, 11 lines, the task is blocked, the read cursor stands at the
write cursor, and the bytes handed to the transport are the committed bytes, oldest first, each once. Where the task
blocks before the last line, the lines left change nothing (log 27). -/
def Obligations.DrainEmpties : Prop :=
  ∀ (s : State) (p : PortId) (P : Port) (T : Ring) (active sends : List Bool), s.port? p = some P → P.tx = some T →
    P.drain = some { state := .draining, line := .testEmpty } → T.Inv →
    P.env.active = true :: true :: active → P.env.sends = true :: true :: sends →
    ∃ (t : State) (Q : Port) (es : List Event), execAll (List.replicate 11 (.drainIteration p)) s = .next t ∧
      t.port? p = some Q ∧ Q.tx = some { T with tail := T.head } ∧
      Q.drain = some { state := .blocked, line := .testEmpty } ∧ Q.rx = P.rx ∧ Q.pending = P.pending ∧
      Q.trace = P.trace ++ es ∧ (es.flatMap Event.sentBytes).map some = T.contents

/-- One round of the decode task's loop (R253, R254): a timeout and a missing answer change no register of the decoder;
a byte is passed to the byte step unchanged, and from coherent registers the round has a next state. -/
def Obligations.DecodeRound : Prop :=
  ∀ (s : State) (p : PortId) (r : Rx), s.rx? p = some r →
    ((s.env p).input = [] → exec (.decodeTaskIteration p) s = .next s) ∧
    (∀ rest, (s.env p).input = .timeout :: rest → ∃ t, exec (.decodeTaskIteration p) s = .next t ∧
      t = s.takeInput p rest ∧ t.rx? p = some r ∧ t.tx? p = s.tx? p) ∧
    (∀ b rest, (s.env p).input = .byte b :: rest →
      exec (.decodeTaskIteration p) s = exec (.rxStep p b) (s.takeInput p rest) ∧
      (r.Inv s.cfg p → r.Coherent → ∃ r' es work, exec (.decodeTaskIteration p) s =
        .next ((s.takeInput p rest).rxNext p r' es work)))

/-- The bounds-checked query (R221, R224): id 0 and every id at or past `TABLE_LEN` give no entry, every other id the
table's entry; nothing is written. -/
def Obligations.Lookups : Prop :=
  ∀ (s : State) (who : Agent) (id : Nat),
    (id = 0 ∨ s.cfg.tableLen ≤ id → exec (.lookupDec who id) s = .next (s.setRet who (.handler none)) ∧
      exec (.lookupGen who id) s = .next (s.setRet who (.generator none))) ∧
    (∀ h, id ≠ 0 → id < s.cfg.tableLen → s.cfg.decTable[id]? = some h →
      exec (.lookupDec who id) s = .next (s.setRet who (.handler h))) ∧
    (∀ g, id ≠ 0 → id < s.cfg.tableLen → s.cfg.genTable[id]? = some g →
      exec (.lookupGen who id) s = .next (s.setRet who (.generator g)))

/-! ### Reset and the whole machine -/

/-- The state after initialisation of any build (R300): for each port, the decoder in `WaitSync`, both counters 0, the
port identity its own, the ring empty and free, no signal pending, the drain blocked. Only the values R300 states. -/
def Obligations.ResetValues : Prop :=
  ∀ (b : Build) (p : PortId) (c : PortCfg), b.ports[p]? = some c →
    (c.hasRx = true → ∃ r, (State.resetOf b).rx? p = some r ∧ r.state = .waitSync ∧ r.rxSuccess = 0 ∧ r.rxError = 0 ∧
      r.port = p) ∧
    (∀ n, c.cbSize = some n → ∃ T, (State.resetOf b).tx? p = some T ∧ T.size = n ∧ T.head = 0 ∧ T.tail = 0 ∧
      T.lock = .free) ∧
    (c.hasDrain = true → ∃ d, (State.resetOf b).drain? p = some d ∧ d.state = .blocked) ∧
    (∀ P, (State.resetOf b).port? p = some P → P.pending = false)

/-- The state after initialisation of every legal build keeps the invariants, and is one of the states the spec's own
agents reach (R302). -/
def Obligations.ResetGood : Prop := ∀ b : Build, b.wf = true → (State.resetOf b).Inv ∧ (State.resetOf b).Good

/-- Every step keeps the invariants, whatever operations the agents execute: cursors inside their arrays, committed
slots written, memories canonical and within their bounds, the provisional count within the free slots, the data count
within `RX_DATA_CAP` and its slots written, counters below `2^CNT_W`, `rx.port` constant (R144 items 1 and 3, R26, R27,
R31, R32, R38, R61). -/
def Obligations.StepKeepsInv : Prop := ∀ s t : State, s.Inv → step s = .next t → t.Inv

/-- Nothing in the block halts (R274, R180): while the agents run what the spec has them run, every step has a next
state, and it is again such a state: no fault, no refusal, ever. -/
def Obligations.StepProgress : Prop := ∀ s : State, s.Good → ∃ t, step s = .next t ∧ t.Good

/-- No step writes the configuration, the number of ports, or the timeout tokens, and no step adds or removes a
receiver, a ring or a drain task (R10, R12, R36, R42, R76, R301). -/
def Obligations.ConfigurationConstant : Prop :=
  ∀ s t : State, step s = .next t → t.cfg = s.cfg ∧ t.ports.length = s.ports.length ∧
    ∀ p P, s.port? p = some P → ∃ Q, t.port? p = some Q ∧ Q.rxTimeout = P.rxTimeout ∧ Q.txTimeout = P.txTimeout ∧
      Q.rx.isSome = P.rx.isSome ∧ Q.tx.isSome = P.tx.isSome ∧ Q.drain.isSome = P.drain.isSome
end

