-- ==== Sys2Proof/Laws/Memory.lean ====
section
/-! SUPPORT. The laws of the byte memories: reading after writing, the canonical form, what a run of reads can do. -/

namespace Sys2Proof.Machine

theorem Mem.read_write_same (m : Mem) (i : Nat) (b : Byte) : (m.write i b).read i = some b := by
  induction m with
  | nil => simp [Mem.write, Mem.read]
  | cons kv m ih =>
    obtain ⟨k, v⟩ := kv
    simp only [Mem.write]
    split
    · simp [Mem.read]
    · split
      · simp [Mem.read]
      · rename_i h1 h2
        simp [Mem.read, ih, Ne.symm h2]

theorem Mem.read_write_other (m : Mem) {i j : Nat} (b : Byte) (h : j ≠ i) : (m.write i b).read j = m.read j := by
  induction m with
  | nil => simp [Mem.write, Mem.read, Ne.symm h]
  | cons kv m ih =>
    obtain ⟨k, v⟩ := kv
    simp only [Mem.write]
    split
    · simp [Mem.read, Ne.symm h]
    · split
      · rename_i h2
        subst h2
        simp [Mem.read, Ne.symm h]
      · by_cases hk : k = j
        · simp [Mem.read, hk]
        · simp [Mem.read, hk, ih]

theorem Mem.read_write (m : Mem) (i j : Nat) (b : Byte) :
    (m.write i b).read j = if j = i then some b else m.read j := by
  split
  · next h => rw [h, Mem.read_write_same]
  · next h => exact Mem.read_write_other m b h

/-- What is written stays written. -/
theorem Mem.written_write {m : Mem} {i : Nat} (j : Nat) (b : Byte) (h : m.Written i) : (m.write j b).Written i := by
  unfold Mem.Written at *
  rw [Mem.read_write]
  split <;> simp_all

theorem Mem.written_write_same (m : Mem) (i : Nat) (b : Byte) : (m.write i b).Written i := by
  simp [Mem.Written, Mem.read_write_same]

theorem Mem.below_write {m : Mem} {n i : Nat} (b : Byte) (hi : i < n) (h : m.Below n) : (m.write i b).Below n := by
  intro j hj
  by_cases hji : j = i
  · omega
  · exact h j (by simpa [Mem.Written, Mem.read_write, hji] using hj)

theorem Mem.below_nil (n : Nat) : Mem.Below [] n := by
  intro i h
  simp [Mem.Written, Mem.read] at h

/-- The canonical form of a list that starts with `k` says that `k` is below the next index. -/
theorem Mem.wf_cons {k : Nat} {v : Byte} {m : Mem} :
    Mem.wf ((k, v) :: m) = true ↔ (∀ x ∈ m.head?, k < x.1) ∧ m.wf = true := by
  cases m with
  | nil => simp [Mem.wf]
  | cons x m => obtain ⟨l, w⟩ := x; simp [Mem.wf]

theorem Mem.head_write (m : Mem) (i : Nat) (b : Byte) :
    ∀ x ∈ (m.write i b).head?, x.1 = i ∨ ∃ y ∈ m.head?, x.1 = y.1 := by
  cases m with
  | nil => simp [Mem.write]
  | cons kv m =>
    obtain ⟨k, v⟩ := kv
    intro x hx
    simp only [Mem.write] at hx
    split at hx
    · simp at hx; subst hx; simp
    · split at hx
      · simp at hx; subst hx; simp
      · simp at hx; subst hx; simp

/-- A write keeps the canonical form. -/
theorem Mem.wf_write (m : Mem) (i : Nat) (b : Byte) (h : m.wf = true) : (m.write i b).wf = true := by
  induction m with
  | nil => simp [Mem.write, Mem.wf]
  | cons kv m ih =>
    obtain ⟨k, v⟩ := kv
    have hm := Mem.wf_cons.mp h
    simp only [Mem.write]
    split
    · next hlt => exact Mem.wf_cons.mpr ⟨by simpa using hlt, h⟩
    · next hge =>
      split
      · next heq => subst heq; exact Mem.wf_cons.mpr hm
      · next hne =>
        refine Mem.wf_cons.mpr ⟨?_, ih hm.2⟩
        intro x hx
        rcases Mem.head_write m i b x hx with hxi | ⟨y, hy, hxy⟩
        · omega
        · have := hm.1 y hy; omega

theorem Mem.load_ok {sp : Space} {n i : Nat} {m : Mem} {b : Byte} (hi : i < n) (h : m.read i = some b) :
    m.load sp n i = .ok b := by
  simp [Mem.load, hi, h]

/-- A run of bytes that are all there reads as those bytes. -/
theorem Mem.loadRun_holds {sp : Space} {size : Nat} {m : Mem} :
    ∀ {bs : List Byte} {start : Nat}, m.Holds start bs → start + bs.length ≤ size →
      m.loadRun sp size start bs.length = .ok bs := by
  intro bs
  induction bs with
  | nil => intro start _ _; rfl
  | cons b bs ih =>
    intro start h hn
    have h0 : m.read start = some b := h 0 (Nat.succ_pos _)
    have hrest : m.Holds (start + 1) bs := by
      intro k hk
      have := h (k + 1) (by simpa using hk)
      simpa [Nat.add_assoc, Nat.add_comm 1 k] using this
    simp only [List.length_cons] at hn
    simp [Mem.loadRun, Mem.load_ok (show start < size by omega) h0, ih hrest (by omega)]

/-- What a run of reads answers: as many bytes as asked for, and they are what the memory holds. -/
theorem Mem.loadRun_spec {sp : Space} {size : Nat} {m : Mem} :
    ∀ {n start : Nat} {bs : List Byte}, m.loadRun sp size start n = .ok bs →
      bs.length = n ∧ m.Holds start bs ∧ (0 < n → start + n ≤ size) := by
  intro n
  induction n with
  | zero =>
    intro start bs h
    simp only [Mem.loadRun, Except.ok.injEq] at h
    subst h
    exact ⟨rfl, fun k hk => absurd hk (by simp), by omega⟩
  | succ n ih =>
    intro start bs h
    simp only [Mem.loadRun] at h
    split at h
    · cases h
    · next b hb =>
      split at h
      · cases h
      · next bs' hbs =>
        cases h
        obtain ⟨hl, hh, hs⟩ := ih hbs
        have hlt : start < size ∧ m.read start = some b := by
          simp only [Mem.load] at hb
          split at hb
          · split at hb <;> simp_all
          · cases hb
        refine ⟨by simp [hl], ?_, ?_⟩
        · intro k hk
          cases k with
          | zero => simpa using hlt.2
          | succ k =>
            have hk' : k < bs'.length := by simpa using hk
            have := hh k hk'
            simpa [Nat.add_assoc, Nat.add_comm 1 k] using this
        · intro _
          rcases Nat.eq_zero_or_pos n with h0 | h0
          · omega
          · have := hs h0; omega

/-- Bytes that are all written are some list of bytes. -/
theorem Mem.exists_holds {m : Mem} : ∀ (n start : Nat), (∀ k, k < n → m.Written (start + k)) →
    ∃ bs : List Byte, bs.length = n ∧ m.Holds start bs := by
  intro n
  induction n with
  | zero => intro start _; exact ⟨[], rfl, fun k hk => absurd hk (by simp)⟩
  | succ n ih =>
    intro start h
    obtain ⟨b, hb⟩ := Option.isSome_iff_exists.mp (by simpa [Mem.Written] using h 0 (by omega))
    obtain ⟨bs, hl, hh⟩ := ih (start + 1) (fun k hk => by
      have := h (k + 1) (by omega); simpa [Nat.add_assoc, Nat.add_comm 1 k] using this)
    refine ⟨b :: bs, by simp [hl], ?_⟩
    intro k hk
    cases k with
    | zero => simpa using hb
    | succ k =>
      have := hh k (by simpa using hk)
      simpa [Nat.add_assoc, Nat.add_comm 1 k] using this

end Sys2Proof.Machine
end

