-- ==== Sys2Proof/Laws/Decoder.lean ====
section
/-! SUPPORT. The laws of the frame decoder: what a byte step can do to the receiver registers, that it keeps their
invariants, and that from a coherent state it never faults (R180, R198, R202). -/

namespace Sys2Proof.Machine

/-! ### What does not matter to the invariants -/

/-- The invariants look at the port, the buffer, the data count and the two counters only. -/
theorem Rx.Inv.congr {c : Cfg} {p : PortId} {r r' : Rx} (h : r.Inv c p) (hp : r'.port = r.port) (hb : r'.buf = r.buf)
    (hc : r'.dataCount = r.dataCount) (hs : r'.rxSuccess = r.rxSuccess) (he : r'.rxError = r.rxError) :
    r'.Inv c p where
  port_eq := hp.trans h.port_eq
  buf_wf := by rw [hb]; exact h.buf_wf
  buf_below := by rw [hb]; exact h.buf_below
  count_le := by rw [hc]; exact h.count_le
  written := by rw [hb, hc]; exact h.written
  success_lt := by rw [hs]; exact h.success_lt
  error_lt := by rw [he]; exact h.error_lt

/-- The registers of a port after initialisation (R300). -/
theorem Rx.inv_reset (c : Cfg) (p : PortId) : (Rx.reset p).Inv c p where
  port_eq := rfl
  buf_wf := rfl
  buf_below := Mem.below_nil _
  count_le := Nat.zero_le _
  written := fun k hk => absurd hk (Nat.not_lt_zero k)
  success_lt := Nat.two_pow_pos _
  error_lt := Nat.two_pow_pos _

theorem Rx.coherent_reset (p : PortId) : (Rx.reset p).Coherent := ⟨(nomatch ·), trivial⟩

/-! ### What a decoder operation may leave -/

/-- The registers a decoder operation of port `p` leaves keep the invariants, and the calls it leaves to make are
DecodeTask(p)'s to make. -/
structure RxOut.Inv (c : Cfg) (p : PortId) (o : RxOut) : Prop where
  rx : o.rx.Inv c p
  work : ∀ i ∈ o.work, Instr.isTask (.decode p) i = true

variable {c : Cfg} {p : PortId} {r : Rx} {b : Byte} {o : RxOut}

theorem RxOut.Inv.regs (h : r.Inv c p) : (RxOut.regs r).Inv c p := ⟨h, by simp [RxOut.regs]⟩

theorem Rx.inv_reseed (h : r.Inv c p) : (reseed c r).Inv c p where
  port_eq := h.port_eq
  buf_wf := h.buf_wf
  buf_below := h.buf_below
  count_le := Nat.zero_le _
  written := fun k hk => absurd hk (Nat.not_lt_zero k)
  success_lt := h.success_lt
  error_lt := h.error_lt

/-- Taking a framing error keeps the invariants (R189). -/
theorem takeFramingError_inv (h : r.Inv c p) (cause : RxErrorCause) : (takeFramingError c cause r).Inv c p :=
  ⟨⟨h.port_eq, h.buf_wf, h.buf_below, h.count_le, h.written, h.success_lt, Nat.mod_lt _ (Nat.two_pow_pos _)⟩,
    by simp [takeFramingError]⟩

/-- What a completion leaves: the counter, the handler's call, the ACK, `WaitSync`; the data is what `RXBUF` holds
(R190, R199). -/
theorem complete_spec (h : complete c r = .ok o) : ∃ data : List Byte,
    data.length = r.dataLength.toNat ∧ r.buf.Holds 0 data ∧
    o = { rx := { r with rxSuccess := (r.rxSuccess + 1) % 2 ^ c.cntW, state := .waitSync, inHandler := r.handler }
          events := .delivered r.port r.cmdId r.ackRequested data ::
            (match r.handler with
             | some h => [.handlerCall r.port r.cmdId h data]
             | none => [])
          work := if r.ackRequested then [.rxSendAck r.port] else [] } := by
  unfold complete at h
  split at h
  · cases h
  · next data hd =>
    obtain ⟨hl, hh, -⟩ := Mem.loadRun_spec hd
    cases h
    exact ⟨data, hl, hh, rfl⟩

/-- A completion whose data is all there does not fault. -/
theorem complete_holds {data : List Byte} (hl : data.length = r.dataLength.toNat) (hh : r.buf.Holds 0 data)
    (hc : r.dataLength.toNat ≤ c.rxDataCap) : complete c r = .ok {
      rx := { r with rxSuccess := (r.rxSuccess + 1) % 2 ^ c.cntW, state := .waitSync, inHandler := r.handler }
      events := .delivered r.port r.cmdId r.ackRequested data ::
        (match r.handler with
         | some h => [.handlerCall r.port r.cmdId h data]
         | none => [])
      work := if r.ackRequested then [.rxSendAck r.port] else [] } := by
  have h := Mem.loadRun_holds (sp := .rxbuf r.port) (size := c.rxDataCap) hh (by omega)
  rw [hl] at h
  unfold complete
  split
  · next he => rw [h] at he; cases he
  · next hd => rw [h] at hd; cases hd; rfl

theorem complete_inv (h : r.Inv c p) (ho : complete c r = .ok o) : o.Inv c p := by
  obtain ⟨data, -, -, rfl⟩ := complete_spec ho
  refine ⟨⟨h.port_eq, h.buf_wf, h.buf_below, h.count_le, h.written, Nat.mod_lt _ (Nat.two_pow_pos _), h.error_lt⟩, ?_⟩
  intro i hi
  by_cases ha : r.ackRequested <;> simp [ha] at hi
  subst hi
  simp [Instr.isTask, h.port_eq]

/-! ### The handlers keep the invariants, whatever state they are run in -/

theorem onWaitSync_inv (h : r.Inv c p) (ho : onWaitSync c b r = .ok o) : o.Inv c p := by
  unfold onWaitSync at ho
  split at ho <;> cases ho
  · exact .regs ((Rx.inv_reseed h).congr rfl rfl rfl rfl rfl)
  · exact .regs h

theorem onRxCmd_inv (h : r.Inv c p) (ho : onRxCmd c b r = .ok o) : o.Inv c p := by
  unfold onRxCmd at ho
  split at ho <;> cases ho
  · exact takeFramingError_inv h _
  · exact .regs (h.congr rfl rfl rfl rfl rfl)

theorem onRxSize_inv (h : r.Inv c p) (ho : onRxSize c b r = .ok o) : o.Inv c p := by
  cases ho
  exact .regs (h.congr rfl rfl rfl rfl rfl)

theorem onRxCrc8_inv (h : r.Inv c p) (ho : onRxCrc8 c b r = .ok o) : o.Inv c p := by
  unfold onRxCrc8 at ho
  split at ho
  · cases ho; exact takeFramingError_inv h _
  · split at ho
    · exact complete_inv h ho
    · cases ho; exact .regs (h.congr rfl rfl rfl rfl rfl)

/-- A data byte is stored at the next free index and nowhere else (R191, R61). -/
theorem onRxData_inv (h : r.Inv c p) (ho : onRxData c b r = .ok o) : o.Inv c p := by
  unfold onRxData at ho
  split at ho
  · cases ho; exact takeFramingError_inv h _
  · next hlt =>
    cases ho
    refine .regs ⟨h.port_eq, Mem.wf_write _ _ _ h.buf_wf, Mem.below_write b (by omega) h.buf_below, Nat.lt_of_not_le hlt,
      ?_, h.success_lt, h.error_lt⟩
    intro k hk
    by_cases hkc : k = r.dataCount
    · subst hkc; exact Mem.written_write_same _ _ _
    · exact Mem.written_write _ b (h.written k (by have : k < r.dataCount + 1 := hk; omega))

theorem onRxCrc16Hi_inv (h : r.Inv c p) (ho : onRxCrc16Hi c b r = .ok o) : o.Inv c p := by
  unfold onRxCrc16Hi at ho
  split at ho <;> cases ho
  · exact takeFramingError_inv h _
  · exact .regs (h.congr rfl rfl rfl rfl rfl)

theorem onRxCrc16Lo_inv (h : r.Inv c p) (ho : onRxCrc16Lo c b r = .ok o) : o.Inv c p := by
  unfold onRxCrc16Lo at ho
  split at ho
  · cases ho; exact takeFramingError_inv h _
  · exact complete_inv h ho

theorem deliverMid_inv (h : r.Inv c p) {m : MidState} (ho : deliverMid c m b r = .ok o) : o.Inv c p := by
  cases m with
  | rxSize => exact onRxSize_inv h ho
  | rxCrc8 => exact onRxCrc8_inv h ho
  | rxData => exact onRxData_inv h ho
  | rxCrc16Hi => exact onRxCrc16Hi_inv h ho
  | rxCrc16Lo => exact onRxCrc16Lo_inv h ho

theorem onEscapeConfirmed_inv (h : r.Inv c p) (ho : onEscapeConfirmed c r = .ok o) : o.Inv c p :=
  deliverMid_inv (h.congr (r' := { r with state := .mid r.saved }) rfl rfl rfl rfl rfl) ho

theorem onAbandonRestart_inv (h : r.Inv c p) (ho : onAbandonRestart c b r = .ok o) : o.Inv c p := by
  unfold onAbandonRestart at ho
  split at ho
  · cases ho
  · next o' ho' =>
    cases ho
    have := onRxCmd_inv ((Rx.inv_reseed h).congr rfl rfl rfl rfl rfl) ho'
    exact ⟨this.rx, this.work⟩

/-- The byte step keeps the invariants (R180). -/
theorem rxStep_inv (h : r.Inv c p) (ho : rxStep c b r = .ok o) : o.Inv c p := by
  unfold rxStep at ho
  split at ho
  · exact onWaitSync_inv h ho
  · exact onRxCmd_inv h ho
  · split at ho
    · cases ho; exact .regs (h.congr rfl rfl rfl rfl rfl)
    · exact deliverMid_inv h ho
  · split at ho
    · exact onEscapeConfirmed_inv h ho
    · exact onAbandonRestart_inv h ho

/-- Bytes fed one after the other keep the invariants. -/
theorem rxFeed_inv : ∀ {bs : List Byte} {r : Rx} {o : RxOut}, r.Inv c p → rxFeed c bs r = .ok o → o.Inv c p := by
  intro bs
  induction bs with
  | nil => intro r o h ho; cases ho; exact .regs h
  | cons b bs ih =>
    intro r o h ho
    simp only [rxFeed] at ho
    split at ho
    · cases ho
    · next o1 ho1 =>
      have h1 := rxStep_inv h ho1
      split at ho
      · split at ho
        · cases ho
        · next o2 ho2 => cases ho; exact ⟨(ih h1.rx ho2).rx, (ih h1.rx ho2).work⟩
      · cases ho
        refine ⟨h1.rx, ?_⟩
        intro i hi
        rcases List.mem_append.mp hi with hi | hi
        · exact h1.work i hi
        · obtain ⟨x, -, rfl⟩ := List.mem_map.mp hi
          simp [Instr.isTask, h.port_eq]

/-! ### From a coherent state no byte faults -/

/-- What a decoder operation that does not fault leaves. -/
def RxTotal (c : Cfg) (p : PortId) (x : RxResult) : Prop := ∃ o, x = .ok o ∧ o.Inv c p ∧ o.rx.Coherent

theorem takeFramingError_total (h : r.Inv c p) (cause : RxErrorCause) :
    RxTotal c p (.ok (takeFramingError c cause r)) :=
  ⟨_, rfl, takeFramingError_inv h cause, (nomatch ·), trivial⟩

theorem complete_total (h : r.Inv c p) (hd : r.dataCount = r.dataLength.toNat) : RxTotal c p (complete c r) := by
  obtain ⟨data, hl, hh⟩ := Mem.exists_holds r.dataLength.toNat 0 (fun k hk => by
    rw [Nat.zero_add]; exact h.written k (by omega))
  have hc := complete_holds (c := c) hl hh (by have := h.count_le; omega)
  exact ⟨_, hc, complete_inv h hc, (nomatch ·), trivial⟩

theorem onRxCmd_total (h : r.Inv c p) (hd : r.dataCount = 0) : RxTotal c p (onRxCmd c b r) := by
  unfold onRxCmd
  split
  · exact takeFramingError_total h _
  · exact ⟨_, rfl, .regs (h.congr rfl rfl rfl rfl rfl), (nomatch ·), hd⟩

theorem onRxCrc8_total (h : r.Inv c p) (hd : r.dataCount = 0) : RxTotal c p (onRxCrc8 c b r) := by
  unfold onRxCrc8
  split
  · exact takeFramingError_total h _
  · split
    · next hz => exact complete_total h (by rw [hz]; simpa using hd)
    · next hz =>
      refine ⟨_, rfl, .regs (h.congr rfl rfl rfl rfl rfl), (nomatch ·), ?_⟩
      show r.dataCount < r.dataLength.toNat
      have : r.dataLength.toNat ≠ 0 := fun h0 => hz (BitVec.eq_of_toNat_eq (by simpa using h0))
      omega

theorem onRxData_total (h : r.Inv c p) (hd : r.dataCount < r.dataLength.toNat) (hs : r.state = .mid .rxData) :
    RxTotal c p (onRxData c b r) := by
  have hinv := fun o => onRxData_inv (b := b) (o := o) h
  unfold onRxData at *
  split
  · exact takeFramingError_total h _
  · next hlt =>
    refine ⟨_, rfl, hinv _ (by rw [if_neg hlt]), ?_, ?_⟩
    · simp only [RxOut.regs]; split <;> simp [hs]
    · by_cases hl : r.dataCount + 1 = r.dataLength.toNat
      · simp [RxOut.regs, Rx.mid?, hl]
      · simp only [RxOut.regs, Rx.mid?, hl, if_false, hs]; omega

theorem deliverMid_total {m : MidState} (h : r.Inv c p) (hs : r.state = .mid m) (hcoh : r.Coherent) :
    RxTotal c p (deliverMid c m b r) := by
  have hm := hcoh.2
  simp only [Rx.mid?, hs] at hm
  cases m with
  | rxSize => exact ⟨_, rfl, .regs (h.congr rfl rfl rfl rfl rfl), (nomatch ·), hm⟩
  | rxCrc8 => exact onRxCrc8_total h hm
  | rxData => exact onRxData_total h hm hs
  | rxCrc16Hi =>
    simp only [deliverMid, onRxCrc16Hi]
    split
    · exact takeFramingError_total h _
    · exact ⟨_, rfl, .regs (h.congr rfl rfl rfl rfl rfl), (nomatch ·), hm⟩
  | rxCrc16Lo =>
    simp only [deliverMid, onRxCrc16Lo]
    split
    · exact takeFramingError_total h _
    · exact complete_total h hm

/-- The byte step is total from a coherent state, and leaves one (R180). -/
theorem rxStep_total (h : r.Inv c p) (hcoh : r.Coherent) (b : Byte) : RxTotal c p (rxStep c b r) := by
  unfold rxStep
  split
  · next hs =>
    unfold onWaitSync
    split
    · exact ⟨_, rfl, .regs ((Rx.inv_reseed h).congr rfl rfl rfl rfl rfl), fun _ => rfl, trivial⟩
    · exact ⟨_, rfl, .regs h, hcoh⟩
  · next hs => exact onRxCmd_total h (hcoh.1 hs)
  · next m hs =>
    split
    · refine ⟨_, rfl, .regs (h.congr rfl rfl rfl rfl rfl), (nomatch ·), ?_⟩
      have hm := hcoh.2
      simp only [Rx.mid?, hs] at hm
      exact hm
    · exact deliverMid_total h hs hcoh
  · next hs =>
    split
    · have hm := hcoh.2
      simp only [Rx.mid?, hs] at hm
      exact deliverMid_total (h.congr (r' := { r with state := .mid r.saved }) rfl rfl rfl rfl rfl) rfl
        ⟨(nomatch ·), hm⟩
    · unfold onAbandonRestart
      have hr : ({ reseed c r with state := RxState.rxCmd } : Rx).Inv c p :=
        (Rx.inv_reseed h).congr rfl rfl rfl rfl rfl
      obtain ⟨o, ho, hi, hc⟩ := onRxCmd_total (b := b) hr rfl
      rw [ho]
      exact ⟨_, rfl, ⟨hi.rx, hi.work⟩, hc⟩

/-- Bytes fed one after the other are total from a coherent state. -/
theorem rxFeed_total : ∀ {bs : List Byte} {r : Rx}, r.Inv c p → r.Coherent → RxTotal c p (rxFeed c bs r) := by
  intro bs
  induction bs with
  | nil => intro r h hc; exact ⟨_, rfl, .regs h, hc⟩
  | cons b bs ih =>
    intro r h hc
    obtain ⟨o, ho, hi, hco⟩ := rxStep_total h hc b
    have hinv := fun o => rxFeed_inv (c := c) (p := p) (bs := b :: bs) (o := o) h
    simp only [rxFeed, ho] at hinv ⊢
    by_cases hw : o.rx.inHandler = none ∧ o.work = []
    · obtain ⟨o2, ho2, hi2, hc2⟩ := ih hi.rx hco
      simp only [if_pos hw, ho2]
      exact ⟨_, rfl, ⟨hi2.rx, hi2.work⟩, hc2⟩
    · simp only [if_neg hw] at hinv ⊢
      exact ⟨_, rfl, hinv _ rfl, hco⟩

end Sys2Proof.Machine
end

