-- ==== Sys2Proof/Laws/Ring.lean ====
section
/-! SUPPORT. The laws of the ring: its counts in closed form, and one lemma per ring operation that says everything the
operation can do. -/

namespace Sys2Proof.Machine

/-! ### The generator call a ring carries -/

section fields
variable (T : Ring) (c : Cfg) (b : Byte) (v : Prov) (k n : Nat) (who : Agent)

@[simp] theorem Ring.setProv_size : (T.setProv v).size = T.size := rfl
@[simp] theorem Ring.setProv_buf : (T.setProv v).buf = T.buf := rfl
@[simp] theorem Ring.setProv_head : (T.setProv v).head = T.head := rfl
@[simp] theorem Ring.setProv_tail : (T.setProv v).tail = T.tail := rfl
@[simp] theorem Ring.setProv_lock : (T.setProv v).lock = T.lock := rfl
@[simp] theorem Ring.setProv_theCall : (T.setProv v).theCall = { T.theCall with prov := v } := rfl
@[simp] theorem Ring.setProv_free : (T.setProv v).free = T.free := rfl
@[simp] theorem Ring.setProv_used : (T.setProv v).used = T.used := rfl
@[simp] theorem Ring.setProv_slot : (T.setProv v).slot k = T.slot k := rfl

@[simp] theorem Ring.stepCrc8_size : (T.stepCrc8 c b).size = T.size := rfl
@[simp] theorem Ring.stepCrc8_buf : (T.stepCrc8 c b).buf = T.buf := rfl
@[simp] theorem Ring.stepCrc8_head : (T.stepCrc8 c b).head = T.head := rfl
@[simp] theorem Ring.stepCrc8_tail : (T.stepCrc8 c b).tail = T.tail := rfl
@[simp] theorem Ring.stepCrc8_lock : (T.stepCrc8 c b).lock = T.lock := rfl
@[simp] theorem Ring.stepCrc8_theCall :
    (T.stepCrc8 c b).theCall = { T.theCall with crc8 := crc8Step c b T.theCall.crc8 } := rfl
@[simp] theorem Ring.stepCrc8_free : (T.stepCrc8 c b).free = T.free := rfl

@[simp] theorem Ring.stepCrc16_size : (T.stepCrc16 c b).size = T.size := rfl
@[simp] theorem Ring.stepCrc16_buf : (T.stepCrc16 c b).buf = T.buf := rfl
@[simp] theorem Ring.stepCrc16_head : (T.stepCrc16 c b).head = T.head := rfl
@[simp] theorem Ring.stepCrc16_tail : (T.stepCrc16 c b).tail = T.tail := rfl
@[simp] theorem Ring.stepCrc16_lock : (T.stepCrc16 c b).lock = T.lock := rfl
@[simp] theorem Ring.stepCrc16_theCall :
    (T.stepCrc16 c b).theCall = { T.theCall with crc16 := crc16Step c b T.theCall.crc16 } := rfl
@[simp] theorem Ring.stepCrc16_free : (T.stepCrc16 c b).free = T.free := rfl

@[simp] theorem Ring.beginCall_size : T.beginCall.size = T.size := rfl
@[simp] theorem Ring.beginCall_buf : T.beginCall.buf = T.buf := rfl
@[simp] theorem Ring.beginCall_head : T.beginCall.head = T.head := rfl
@[simp] theorem Ring.beginCall_tail : T.beginCall.tail = T.tail := rfl
@[simp] theorem Ring.beginCall_lock : T.beginCall.lock = T.lock := rfl
@[simp] theorem Ring.beginCall_theCall : T.beginCall.theCall = GenCall.start := rfl
@[simp] theorem Ring.beginCall_free : T.beginCall.free = T.free := rfl

@[simp] theorem Ring.dropCall_size : T.dropCall.size = T.size := rfl
@[simp] theorem Ring.dropCall_buf : T.dropCall.buf = T.buf := rfl
@[simp] theorem Ring.dropCall_head : T.dropCall.head = T.head := rfl
@[simp] theorem Ring.dropCall_tail : T.dropCall.tail = T.tail := rfl
@[simp] theorem Ring.dropCall_lock : T.dropCall.lock = T.lock := rfl
@[simp] theorem Ring.dropCall_call : T.dropCall.call = none := rfl
@[simp] theorem Ring.dropCall_free : T.dropCall.free = T.free := rfl
@[simp] theorem Ring.dropCall_used : T.dropCall.used = T.used := rfl

@[simp] theorem Ring.put_size : (T.put k b).size = T.size := rfl
@[simp] theorem Ring.put_head : (T.put k b).head = T.head := rfl
@[simp] theorem Ring.put_tail : (T.put k b).tail = T.tail := rfl
@[simp] theorem Ring.put_lock : (T.put k b).lock = T.lock := rfl
@[simp] theorem Ring.put_call : (T.put k b).call = T.call := rfl
@[simp] theorem Ring.put_theCall : (T.put k b).theCall = T.theCall := rfl
@[simp] theorem Ring.put_free : (T.put k b).free = T.free := rfl
@[simp] theorem Ring.put_used : (T.put k b).used = T.used := rfl
@[simp] theorem Ring.put_slot (j : Nat) : (T.put k b).slot j = T.slot j := rfl

@[simp] theorem Ring.claim_lock : (T.claim who).lock = .held who := rfl
@[simp] theorem Ring.claim_head : (T.claim who).head = T.head := rfl
@[simp] theorem Ring.claim_tail : (T.claim who).tail = T.tail := rfl
@[simp] theorem Ring.claim_size : (T.claim who).size = T.size := rfl
@[simp] theorem Ring.claim_buf : (T.claim who).buf = T.buf := rfl
@[simp] theorem Ring.claim_call : (T.claim who).call = none := rfl
@[simp] theorem Ring.claim_free : (T.claim who).free = T.free := rfl

@[simp] theorem Ring.release_lock : T.release.lock = .free := rfl
@[simp] theorem Ring.release_head : T.release.head = T.head := rfl
@[simp] theorem Ring.release_tail : T.release.tail = T.tail := rfl
@[simp] theorem Ring.release_size : T.release.size = T.size := rfl
@[simp] theorem Ring.release_buf : T.release.buf = T.buf := rfl
@[simp] theorem Ring.release_call : T.release.call = none := rfl

@[simp] theorem Ring.advance_head : (T.advance n).head = T.head := rfl
@[simp] theorem Ring.advance_tail : (T.advance n).tail = (T.tail + n) % T.size := rfl
@[simp] theorem Ring.advance_size : (T.advance n).size = T.size := rfl
@[simp] theorem Ring.advance_buf : (T.advance n).buf = T.buf := rfl
@[simp] theorem Ring.advance_lock : (T.advance n).lock = T.lock := rfl
@[simp] theorem Ring.advance_call : (T.advance n).call = T.call := rfl

end fields

/-! ### The counts (R131) -/

theorem Ring.Inv.cursorsIn {T : Ring} (h : T.Inv) : T.CursorsIn := ⟨h.head_lt, h.tail_lt⟩

/-- `used` in natural numbers. -/
theorem Ring.used_eq {T : Ring} (h : T.CursorsIn) :
    T.used = if T.tail ≤ T.head then T.head - T.tail else T.size + T.head - T.tail := by
  obtain ⟨hh, ht⟩ := h
  unfold Ring.used
  split
  · next hle =>
    rw [Int.emod_eq_of_lt (by omega) (by omega)]; omega
  · next hlt =>
    rw [← Int.add_emod_right, Int.emod_eq_of_lt (by omega) (by omega)]; omega

/-- `free` in natural numbers. -/
theorem Ring.free_eq {T : Ring} (h : T.CursorsIn) :
    T.free = if T.tail ≤ T.head then T.size + T.tail - T.head - 1 else T.tail - T.head - 1 := by
  obtain ⟨hh, ht⟩ := h
  unfold Ring.free
  split
  · next hle =>
    rw [← Int.add_emod_right, Int.emod_eq_of_lt (by omega) (by omega)]; omega
  · next hlt =>
    rw [Int.emod_eq_of_lt (by omega) (by omega)]; omega

theorem Ring.free_lt {T : Ring} (h : T.CursorsIn) : T.free < T.size := by
  have := h.1; have := h.2
  rw [Ring.free_eq h]; split <;> omega

theorem Ring.used_lt {T : Ring} (h : T.CursorsIn) : T.used < T.size := by
  have := h.1; have := h.2
  rw [Ring.used_eq h]; split <;> omega

/-! ### Slots -/

/-- An index that is at most one turn past the end of the array, reduced. -/
theorem mod_ring {a n : Nat} (h : a < 2 * n) : a % n = if a < n then a else a - n := by
  split
  · next h1 => exact Nat.mod_eq_of_lt h1
  · next h1 => rw [Nat.mod_eq_sub_mod (by omega), Nat.mod_eq_of_lt (by omega)]

theorem Ring.slot_lt {T : Ring} (h : T.CursorsIn) (k : Nat) : T.slot k < T.size :=
  Nat.mod_lt _ (by have := h.1; omega)

/-- Different offsets below the size are different slots. -/
theorem Ring.slot_ne {T : Ring} (h : T.CursorsIn) {j k : Nat} (hj : j < T.size) (hk : k < T.size) (hne : j ≠ k) :
    T.slot j ≠ T.slot k := by
  have := h.1
  unfold Ring.slot
  rw [mod_ring (by omega), mod_ring (by omega)]
  split <;> split <;> omega

/-- A free slot is no committed slot. -/
theorem Ring.slot_ne_committed {T : Ring} (h : T.CursorsIn) {j k : Nat} (hj : j < T.free) (hk : k < T.used) :
    T.slot j ≠ (T.tail + k) % T.size := by
  have h1 := h.1; have h2 := h.2
  have hf := Ring.free_lt h; have hu := Ring.used_lt h
  rw [Ring.free_eq h] at hj; rw [Ring.used_eq h] at hk
  unfold Ring.slot
  rw [mod_ring (a := T.head + j) (by split at hj <;> omega), mod_ring (a := T.tail + k) (by split at hk <;> omega)]
  split at hj <;> split at hk <;> split <;> split <;> omega

/-! ### The provisional writers (R135, R136, R137) -/

/-- Everything `cb_write_raw` can do. -/
theorem Ring.writeRaw_cases (T : Ring) (b : Byte) :
    (T.writeRaw b = T.setProv .poison ∧ (T.theCall.prov = .poison ∨ ∃ n, T.theCall.prov = .count n ∧ T.free < n + 1)) ∨
    (∃ n, T.theCall.prov = .count n ∧ n + 1 ≤ T.free ∧ T.writeRaw b = (T.put n b).setProv (.count (n + 1))) := by
  unfold Ring.writeRaw
  cases hp : T.theCall.prov with
  | poison => exact .inl ⟨rfl, .inl rfl⟩
  | count n =>
    by_cases hf : T.free < n + 1
    · exact .inl ⟨by simp [hf], .inr ⟨n, rfl, hf⟩⟩
    · exact .inr ⟨n, rfl, by omega, by simp [hf]⟩

/-- Everything `cb_write_esc` can do. -/
theorem Ring.writeEsc_cases (c : Cfg) (T : Ring) (b : Byte) :
    (T.writeEsc c b = T.setProv .poison ∧
      (T.theCall.prov = .poison ∨ ∃ n, T.theCall.prov = .count n ∧ T.free < n + (if b = c.sync then 2 else 1))) ∨
    (∃ n, b ≠ c.sync ∧ T.theCall.prov = .count n ∧ n + 1 ≤ T.free ∧
      T.writeEsc c b = (T.put n b).setProv (.count (n + 1))) ∨
    (∃ n, b = c.sync ∧ T.theCall.prov = .count n ∧ n + 2 ≤ T.free ∧
      T.writeEsc c b = ((T.put n b).put (n + 1) b).setProv (.count (n + 2))) := by
  unfold Ring.writeEsc
  cases hp : T.theCall.prov with
  | poison => exact .inl ⟨rfl, .inl rfl⟩
  | count n =>
    by_cases hb : b = c.sync
    · by_cases hf : T.free < n + 2
      · exact .inl ⟨by simp [hb, hf], .inr ⟨n, rfl, by simpa [hb] using hf⟩⟩
      · exact .inr (.inr ⟨n, hb, rfl, by omega, by simp [hb, hf]⟩)
    · by_cases hf : T.free < n + 1
      · exact .inl ⟨by simp [hb, hf], .inr ⟨n, rfl, by simpa [hb] using hf⟩⟩
      · exact .inr (.inl ⟨n, hb, rfl, by omega, by simp [hb, hf]⟩)

/-- Everything `cb_commit` can do (R138). -/
theorem Ring.commit_cases (T : Ring) :
    (T.theCall.prov = .poison ∧ T.commit = (T.dropCall, false)) ∨
    (∃ n, T.theCall.prov = .count n ∧
      T.commit = ({ T.dropCall with head := (T.head + n) % T.size }, true)) := by
  unfold Ring.commit
  cases hp : T.theCall.prov with
  | poison => exact .inl ⟨rfl, rfl⟩
  | count n => exact .inr ⟨n, rfl, rfl⟩

/-- What the readable run of a ring is: it starts at the read cursor, ends inside the array, and covers committed
slots only (R141). -/
theorem Ring.readableRun_spec {T : Ring} (h : T.CursorsIn) :
    T.readableRun.1 = T.tail ∧ T.readableRun.2 ≤ T.used ∧ T.tail + T.readableRun.2 ≤ T.size ∧
      (T.head ≠ T.tail → 0 < T.readableRun.2) := by
  have h1 := h.1; have h2 := h.2
  rw [Ring.used_eq h]
  unfold Ring.readableRun
  split <;> simp <;> omega

/-- Committed slots are those from the read cursor on, `used` of them (R130). -/
theorem Ring.isCommitted_iff {T : Ring} {i : Nat} (hi : i < T.size) :
    T.isCommitted i = true ↔ ∃ j, j < T.used ∧ i = (T.tail + j) % T.size := by
  have hN : (T.size : Int) ≠ 0 := by omega
  have hpos := Int.emod_nonneg ((i : Int) - T.tail) hN
  simp only [Ring.isCommitted, decide_eq_true_eq]
  constructor
  · intro h
    refine ⟨_, h, Int.ofNat_inj.mp ?_⟩
    rw [Int.natCast_mod, Int.natCast_add, Int.toNat_of_nonneg hpos, Int.add_emod_emod,
      add_sub_cancel, ← Int.natCast_mod, Nat.mod_eq_of_lt hi]
  · rintro ⟨j, hj, rfl⟩
    have hu : T.used < T.size := by
      have := Int.emod_lt_of_pos ((T.head : Int) - T.tail) (by omega : (0 : Int) < T.size)
      have := Int.emod_nonneg ((T.head : Int) - T.tail) hN
      unfold Ring.used; omega
    rw [Int.natCast_mod, Int.emod_sub_emod, Int.natCast_add, add_sub_cancel_left, ← Int.natCast_mod,
      Int.toNat_natCast, Nat.mod_eq_of_lt (by omega)]
    exact hj

theorem Ring.isCommittedRun_iff {T : Ring} {start len : Nat} (h : start + len ≤ T.size) :
    T.isCommittedRun start len = true ↔
      ∀ k, k < len → ∃ j, j < T.used ∧ start + k = (T.tail + j) % T.size := by
  simp only [Ring.isCommittedRun, List.all_eq_true, List.mem_range]
  exact forall_congr' fun k => imp_congr_right fun hk => Ring.isCommitted_iff (by omega)

/-- A read of a run answers the bytes the array holds there (R142). -/
theorem Ring.readRun_holds {p : PortId} {T : Ring} {start : Nat} {bs : List Byte} (h : T.buf.Holds start bs)
    (hn : start + bs.length ≤ T.size) : T.readRun p start bs.length = .ok bs :=
  Mem.loadRun_holds h hn

end Sys2Proof.Machine
end

