-- ==== Sys2Proof/Laws/Generator.lean ====
section
/-! SUPPORT. The laws of the frame encoder: what a provisional write adds, and what a generator call leaves. -/

namespace Sys2Proof.Machine

/-! ### Escape doubling -/

theorem escapeBytes_append (sync : Byte) (xs ys : List Byte) :
    escapeBytes sync (xs ++ ys) = escapeBytes sync xs ++ escapeBytes sync ys := by
  induction xs with
  | nil => rfl
  | cons x xs ih => simp only [List.cons_append, escapeBytes, ih]; split <;> rfl

theorem escapeBytes_cons (sync b : Byte) (bs : List Byte) :
    escapeBytes sync (b :: bs) = escapeBytes sync [b] ++ escapeBytes sync bs :=
  escapeBytes_append sync [b] bs

/-- Doubling adds one byte for each `SYNC` (R98). -/
theorem escapeBytes_length (sync : Byte) (bs : List Byte) :
    (escapeBytes sync bs).length = bs.length + doubled sync bs := by
  induction bs with
  | nil => rfl
  | cons b bs ih =>
    simp only [escapeBytes, doubled, List.countP_cons] at *
    split
    · next h => simp [ih, h]; omega
    · next h => simp [ih, h]; omega

/-! ### What a call has written so far -/

/-- The call on `T` has written `bs` behind the write cursor of `T₀`, and nothing else. -/
structure Ring.Wrote (T₀ T : Ring) (bs : List Byte) : Prop where
  size : T.size = T₀.size
  head : T.head = T₀.head
  tail : T.tail = T₀.tail
  lock : T.lock = T₀.lock
  prov : T.theCall.prov = .count bs.length
  fits : bs.length ≤ T₀.free
  bytes : ∀ k (h : k < bs.length), T.buf.read (T₀.slot k) = some bs[k]
  others : ∀ a, (∀ k, k < bs.length → a ≠ T₀.slot k) → T.buf.read a = T₀.buf.read a

/-- The call on `T` is poisoned and has written into free slots of `T₀` only. -/
structure Ring.Poisoned (T₀ T : Ring) : Prop where
  size : T.size = T₀.size
  head : T.head = T₀.head
  tail : T.tail = T₀.tail
  lock : T.lock = T₀.lock
  prov : T.theCall.prov = .poison
  others : ∀ a, (∀ k, k < T₀.free → a ≠ T₀.slot k) → T.buf.read a = T₀.buf.read a

variable {T₀ T : Ring} {bs : List Byte} {c : Cfg}

theorem Ring.Wrote.free_eq (h : T₀.Wrote T bs) : T.free = T₀.free := by
  simp only [Ring.free, h.size, h.head, h.tail]

theorem Ring.Wrote.slot_eq (h : T₀.Wrote T bs) (k : Nat) : T.slot k = T₀.slot k := by
  simp only [Ring.slot, h.size, h.head]

theorem Ring.Wrote.poisoned (h : T₀.Wrote T bs) : T₀.Poisoned (T.setProv .poison) where
  size := h.size
  head := h.head
  tail := h.tail
  lock := h.lock
  prov := rfl
  others := fun a ha => h.others a fun k hk => ha k (by have := h.fits; omega)

/-- A call at its start has written nothing. -/
theorem Ring.wrote_nil (h : T.theCall.prov = .count 0) : T.Wrote T [] where
  size := rfl
  head := rfl
  tail := rfl
  lock := rfl
  prov := h
  fits := Nat.zero_le _
  bytes := fun _ hk => absurd hk (by simp)
  others := fun _ _ => rfl

/-- Stepping an accumulator writes nothing. -/
theorem Ring.Wrote.stepCrc8 (h : T₀.Wrote T bs) (b : Byte) : T₀.Wrote (T.stepCrc8 c b) bs :=
  ⟨h.size, h.head, h.tail, h.lock, h.prov, h.fits, h.bytes, h.others⟩

theorem Ring.Wrote.stepCrc16 (h : T₀.Wrote T bs) (b : Byte) : T₀.Wrote (T.stepCrc16 c b) bs :=
  ⟨h.size, h.head, h.tail, h.lock, h.prov, h.fits, h.bytes, h.others⟩

theorem Ring.Poisoned.stepCrc8 (h : T₀.Poisoned T) (b : Byte) : T₀.Poisoned (T.stepCrc8 c b) :=
  ⟨h.size, h.head, h.tail, h.lock, h.prov, h.others⟩

theorem Ring.Poisoned.stepCrc16 (h : T₀.Poisoned T) (b : Byte) : T₀.Poisoned (T.stepCrc16 c b) :=
  ⟨h.size, h.head, h.tail, h.lock, h.prov, h.others⟩

/-- One more byte behind what was written. -/
theorem Ring.Wrote.put_one (hc : T₀.CursorsIn) (h : T₀.Wrote T bs) (b : Byte) (hf : bs.length + 1 ≤ T₀.free) :
    T₀.Wrote ((T.put bs.length b).setProv (.count (bs.length + 1))) (bs ++ [b]) where
  size := h.size
  head := h.head
  tail := h.tail
  lock := h.lock
  prov := by simp
  fits := by simpa using hf
  bytes := by
    intro k hk
    have hfl := Ring.free_lt hc
    simp only [Ring.setProv_buf, Ring.put, h.slot_eq, Mem.read_write]
    by_cases hkl : k = bs.length
    · subst hkl; simp
    · have hk' : k < bs.length := by simp at hk; omega
      rw [if_neg (Ring.slot_ne hc (by omega) (by omega) hkl), h.bytes k hk', List.getElem_append_left hk']
  others := by
    intro a ha
    simp only [Ring.setProv_buf, Ring.put, h.slot_eq, Mem.read_write]
    rw [if_neg (ha _ (by simp)), h.others a fun k hk => ha k (by simp; omega)]

/-- Only the count and the buffer of a written ring matter to the next write. -/
theorem Ring.Wrote.setCount (h : T₀.Wrote T bs) {n : Nat} (hn : n = bs.length) : T₀.Wrote (T.setProv (.count n)) bs :=
  ⟨h.size, h.head, h.tail, h.lock, by simp [hn], h.fits, h.bytes, h.others⟩

/-- `cb_write_raw` with room for its byte. -/
theorem Ring.Wrote.writeRaw (hc : T₀.CursorsIn) (h : T₀.Wrote T bs) (b : Byte) (hf : bs.length + 1 ≤ T₀.free) :
    T₀.Wrote (T.writeRaw b) (bs ++ [b]) := by
  rcases Ring.writeRaw_cases T b with ⟨-, hp | ⟨n, hp, hlt⟩⟩ | ⟨n, hp, -, he⟩
  · rw [h.prov] at hp; cases hp
  · rw [h.prov] at hp; cases hp; rw [h.free_eq] at hlt; omega
  · rw [h.prov] at hp; cases hp; rw [he]; exact h.put_one hc b hf

/-- `cb_write_esc` with room for all of it: the byte, doubled when it is `SYNC`. -/
theorem Ring.Wrote.writeEsc (hc : T₀.CursorsIn) (h : T₀.Wrote T bs) (b : Byte)
    (hf : bs.length + (escapeBytes c.sync [b]).length ≤ T₀.free) :
    T₀.Wrote (T.writeEsc c b) (bs ++ escapeBytes c.sync [b]) := by
  rcases Ring.writeEsc_cases c T b with ⟨-, hp | ⟨n, hp, hlt⟩⟩ | ⟨n, hb, hp, -, he⟩ | ⟨n, hb, hp, -, he⟩
  · rw [h.prov] at hp; cases hp
  · rw [h.prov] at hp; cases hp; rw [h.free_eq] at hlt
    exfalso
    by_cases hb : b = c.sync <;> simp [escapeBytes, hb] at hf hlt <;> omega
  · rw [h.prov] at hp; cases hp; rw [he]
    simp only [escapeBytes, hb, if_false] at hf ⊢
    exact h.put_one hc b hf
  · rw [h.prov] at hp; cases hp; rw [he]
    simp only [escapeBytes, if_pos hb] at hf ⊢
    simp only [List.length_cons, List.length_nil] at hf
    have h1 := h.put_one hc b (by omega)
    have h2 := h1.put_one hc b (by simp; omega)
    simpa [Ring.setProv, Ring.put, Ring.theCall, Ring.slot, List.append_assoc] using h2

/-- `cb_write_esc` without room for all of it (R137). -/
theorem Ring.Wrote.writeEsc_full (h : T₀.Wrote T bs) (b : Byte)
    (hf : T₀.free < bs.length + (escapeBytes c.sync [b]).length) : T₀.Poisoned (T.writeEsc c b) := by
  rcases Ring.writeEsc_cases c T b with ⟨he, -⟩ | ⟨n, hb, hp, hle, -⟩ | ⟨n, hb, hp, hle, -⟩
  · rw [he]; exact h.poisoned
  · rw [h.prov] at hp; cases hp; rw [h.free_eq] at hle; simp [escapeBytes, hb] at hf; omega
  · rw [h.prov] at hp; cases hp; rw [h.free_eq] at hle; simp [escapeBytes, hb] at hf; omega

/-- Poison is sticky (R137). -/
theorem Ring.Poisoned.writeEsc (h : T₀.Poisoned T) (b : Byte) : T₀.Poisoned (T.writeEsc c b) := by
  rcases Ring.writeEsc_cases c T b with ⟨he, -⟩ | ⟨n, hb, hp, hle, -⟩ | ⟨n, hb, hp, hle, -⟩
  · rw [he]; exact ⟨h.size, h.head, h.tail, h.lock, rfl, h.others⟩
  · rw [h.prov] at hp; cases hp
  · rw [h.prov] at hp; cases hp

/-- A call that has written `bs` of what it will write, or is poisoned because all of it does not fit. -/
def Ring.Writing (T₀ T : Ring) (bs : List Byte) : Prop :=
  (bs.length ≤ T₀.free ∧ T₀.Wrote T bs) ∨ (T₀.free < bs.length ∧ T₀.Poisoned T)

theorem Ring.Writing.stepCrc8 (h : T₀.Writing T bs) (b : Byte) : T₀.Writing (T.stepCrc8 c b) bs :=
  h.imp (fun h => ⟨h.1, h.2.stepCrc8 b⟩) (fun h => ⟨h.1, h.2.stepCrc8 b⟩)

theorem Ring.Writing.stepCrc16 (h : T₀.Writing T bs) (b : Byte) : T₀.Writing (T.stepCrc16 c b) bs :=
  h.imp (fun h => ⟨h.1, h.2.stepCrc16 b⟩) (fun h => ⟨h.1, h.2.stepCrc16 b⟩)

/-- One call of the escape-aware writer. -/
theorem Ring.Writing.writeEsc (hc : T₀.CursorsIn) (h : T₀.Writing T bs) (b : Byte) :
    T₀.Writing (T.writeEsc c b) (bs ++ escapeBytes c.sync [b]) := by
  rcases h with ⟨hl, h⟩ | ⟨hl, h⟩
  · by_cases hf : bs.length + (escapeBytes c.sync [b]).length ≤ T₀.free
    · exact .inl ⟨by simpa using hf, h.writeEsc hc b hf⟩
    · exact .inr ⟨by simp; omega, h.writeEsc_full b (by omega)⟩
  · exact .inr ⟨by simp; omega, h.writeEsc b⟩

/-! ### The accumulators -/

@[simp] theorem Ring.writeRaw_crc8 (T : Ring) (b : Byte) : (T.writeRaw b).theCall.crc8 = T.theCall.crc8 := by
  rcases Ring.writeRaw_cases T b with ⟨he, -⟩ | ⟨n, -, -, he⟩ <;> rw [he] <;> rfl

@[simp] theorem Ring.writeRaw_crc16 (T : Ring) (b : Byte) : (T.writeRaw b).theCall.crc16 = T.theCall.crc16 := by
  rcases Ring.writeRaw_cases T b with ⟨he, -⟩ | ⟨n, -, -, he⟩ <;> rw [he] <;> rfl

@[simp] theorem Ring.writeEsc_crc8 (c : Cfg) (T : Ring) (b : Byte) :
    (T.writeEsc c b).theCall.crc8 = T.theCall.crc8 := by
  rcases Ring.writeEsc_cases c T b with ⟨he, -⟩ | ⟨n, -, -, -, he⟩ | ⟨n, -, -, -, he⟩ <;> rw [he] <;> rfl

@[simp] theorem Ring.writeEsc_crc16 (c : Cfg) (T : Ring) (b : Byte) :
    (T.writeEsc c b).theCall.crc16 = T.theCall.crc16 := by
  rcases Ring.writeEsc_cases c T b with ⟨he, -⟩ | ⟨n, -, -, -, he⟩ | ⟨n, -, -, -, he⟩ <;> rw [he] <;> rfl

/-- The data bytes of a frame (R163 step 6). -/
theorem Ring.Writing.emitData (hc : T₀.CursorsIn) : ∀ {ds bs : List Byte} {T : Ring}, T₀.Writing T bs →
    T₀.Writing (T.emitData c ds) (bs ++ escapeBytes c.sync ds) := by
  intro ds
  induction ds with
  | nil => intro bs T h; simpa [Ring.emitData, escapeBytes] using h
  | cons d ds ih =>
    intro bs T h
    have := ih ((h.stepCrc16 (c := c) d).writeEsc (c := c) hc d)
    rw [escapeBytes_cons, ← List.append_assoc]
    exact this

theorem Ring.emitData_crc16 (c : Cfg) : ∀ (ds : List Byte) (T : Ring),
    (T.emitData c ds).theCall.crc16 = ds.foldl (fun acc b => crc16Step c b acc) T.theCall.crc16 := by
  intro ds
  induction ds with
  | nil => intro T; rfl
  | cons d ds ih => intro T; simp [Ring.emitData, ih]

/-! ### Generator calls -/

/-- The end of a generator call whose writes are `bs`: committed whole when they fit, nothing committed otherwise. -/
theorem Ring.Writing.finish (h : T₀.Writing T bs) :
    (bs.length ≤ T₀.free ∧ T.finish.2 = none ∧ T₀.Appended T.finish.1 bs) ∨
    (T₀.free < bs.length ∧ T.finish.2 = some .noSpaceLate ∧ T₀.OnlyStale T.finish.1) := by
  rcases h with ⟨hl, h⟩ | ⟨hl, h⟩
  · refine .inl ⟨hl, ?_⟩
    rcases T.commit_cases with ⟨hp, -⟩ | ⟨n, hp, he⟩
    · rw [h.prov] at hp; cases hp
    · rw [h.prov] at hp; cases hp
      simp only [Ring.finish, he, if_true, true_and]
      exact ⟨h.size, by simp [h.size, h.head], h.tail, h.bytes, h.others⟩
  · refine .inr ⟨hl, ?_⟩
    rcases T.commit_cases with ⟨-, he⟩ | ⟨n, hp, -⟩
    · simp only [Ring.finish, he, Bool.false_eq_true, if_false, true_and]
      exact ⟨h.size, h.head, h.tail, h.others⟩
    · rw [h.prov] at hp; cases hp

/-- A generator call that has finished holds no call, and the lock is as it was. -/
theorem Ring.finish_call (T : Ring) : T.finish.1.call = none ∧ T.finish.1.lock = T.lock := by
  rcases T.commit_cases with ⟨-, he⟩ | ⟨n, -, he⟩ <;> simp [Ring.finish, he, Ring.dropCall]

@[simp] theorem Ring.writeRaw_lock (T : Ring) (b : Byte) : (T.writeRaw b).lock = T.lock := by
  rcases Ring.writeRaw_cases T b with ⟨he, -⟩ | ⟨n, -, -, he⟩ <;> rw [he] <;> rfl

@[simp] theorem Ring.writeEsc_lock (c : Cfg) (T : Ring) (b : Byte) : (T.writeEsc c b).lock = T.lock := by
  rcases Ring.writeEsc_cases c T b with ⟨he, -⟩ | ⟨n, -, -, -, he⟩ | ⟨n, -, -, -, he⟩ <;> rw [he] <;> rfl

@[simp] theorem Ring.emitData_lock (c : Cfg) : ∀ (ds : List Byte) (T : Ring), (T.emitData c ds).lock = T.lock := by
  intro ds
  induction ds with
  | nil => intro T; rfl
  | cons d ds ih => intro T; simp [Ring.emitData, ih]

/-- What a generator call of `n` payload bytes leaves: its frame appended, or nothing but stale bytes in free slots,
with the cause of the failure (R161, R165, R167, R168, R171). -/
structure Ring.GenOut (T : Ring) (out : Ring × Option CapacityCause) (n : Nat) (bs : List Byte) : Prop where
  lock : out.1.lock = T.lock
  call : out.1.call = none
  ok : n + 6 ≤ T.free → bs.length ≤ T.free → out.2 = none ∧ T.Appended out.1 bs
  late : n + 6 ≤ T.free → T.free < bs.length → out.2 = some .noSpaceLate ∧ T.OnlyStale out.1
  upFront : T.free < n + 6 → out = (T.dropCall, some .noSpaceUpFront)

/-- A ring whose call has just begun is the ring itself, to what a call leaves. -/
theorem Ring.appended_beginCall {T T' : Ring} {bs : List Byte} (h : T.beginCall.Appended T' bs) : T.Appended T' bs :=
  ⟨h.size, h.head, h.tail, h.bytes, h.others⟩

theorem Ring.onlyStale_beginCall {T T' : Ring} (h : T.beginCall.OnlyStale T') : T.OnlyStale T' :=
  ⟨h.size, h.head, h.tail, h.others⟩

/-- From what a call writes to what it leaves. -/
theorem Ring.GenOut.of_writing {T T' : Ring} {n : Nat} {bs : List Byte} (hw : T.beginCall.Writing T' bs)
    (hl : T'.lock = T.lock) (hn : n + 6 ≤ T.free) : T.GenOut T'.finish n bs where
  lock := by rw [T'.finish_call.2, hl]
  call := T'.finish_call.1
  ok := by
    intro _ hb
    rcases hw.finish with ⟨-, h2, h3⟩ | ⟨hlt, -, -⟩
    · exact ⟨h2, Ring.appended_beginCall h3⟩
    · simp at hlt; omega
  late := by
    intro _ hb
    rcases hw.finish with ⟨hlt, -, -⟩ | ⟨-, h2, h3⟩
    · simp at hlt; omega
    · exact ⟨h2, Ring.onlyStale_beginCall h3⟩
  upFront := by intro h; omega

/-- `gen_header_only` (R162, R161, R171). -/
theorem Ring.genHeaderOnly_spec (c : Cfg) (cmd : Byte) {T : Ring} (hc : T.CursorsIn) :
    T.GenOut (T.genHeaderOnly c cmd) 0 (wire c.sync (frameOf0 c cmd)) := by
  unfold Ring.genHeaderOnly
  by_cases hf : T.free < 6
  · rw [if_pos hf]
    exact ⟨rfl, rfl, fun h => by omega, fun h => by omega, fun _ => rfl⟩
  · rw [if_neg hf]
    have hc' : T.beginCall.CursorsIn := hc
    have h0 : T.beginCall.Wrote (T.beginCall.stepCrc8 c c.sync) [] := (Ring.wrote_nil rfl).stepCrc8 _
    have h1 : T.beginCall.Writing ((T.beginCall.stepCrc8 c c.sync).writeRaw c.sync) [c.sync] :=
      .inl ⟨by simp; omega, h0.writeRaw hc' c.sync (by simp; omega)⟩
    have h2 := (h1.stepCrc8 (c := c) cmd).writeEsc (c := c) hc' cmd
    have h3 := (h2.stepCrc8 (c := c) 0x00).writeEsc (c := c) hc' 0x00
    have h4 := h3.writeEsc (c := c) hc' (crc8Fold c [c.sync, cmd, 0x00])
    have hw : wire c.sync (frameOf0 c cmd) = [c.sync] ++ escapeBytes c.sync [cmd] ++ escapeBytes c.sync [0x00] ++
        escapeBytes c.sync [crc8Fold c [c.sync, cmd, 0x00]] := by
      simp only [wire, frameOf0, headerBytes]
      rw [escapeBytes_cons _ cmd, escapeBytes_cons _ 0x00]
      simp
    rw [hw]
    have hcrc : (Ring.writeEsc c (Ring.stepCrc8 c 0x00 (Ring.writeEsc c (Ring.stepCrc8 c cmd
        ((T.beginCall.stepCrc8 c c.sync).writeRaw c.sync)) cmd)) 0x00).theCall.crc8 =
        crc8Fold c [c.sync, cmd, 0x00] := by
      simp [crc8Fold, GenCall.start]
    have key := Ring.GenOut.of_writing (n := 0) h4 (by simp) (by omega)
    simp only [hcrc]
    exact key

/-- `gen_generic` with a payload of 1 to 255 bytes (R163, R161, R171). -/
theorem Ring.genGeneric_spec (c : Cfg) (cmd : Byte) {data : List Byte} {T : Ring} (hc : T.CursorsIn)
    (hd : data ≠ []) (hn : data.length ≤ 255) :
    T.GenOut (T.genGeneric c cmd data) data.length (wire c.sync (frameOf c cmd data)) := by
  unfold Ring.genGeneric
  rw [if_neg (by omega), if_neg hd]
  by_cases hf : T.free < data.length + 6
  · rw [if_pos hf]
    exact ⟨rfl, rfl, fun h => by omega, fun h => by omega, fun _ => rfl⟩
  · rw [if_neg hf]
    have hc' : T.beginCall.CursorsIn := hc
    have h0 : T.beginCall.Wrote ((T.beginCall.stepCrc8 c c.sync).stepCrc16 c c.sync) [] :=
      ((Ring.wrote_nil rfl).stepCrc8 _).stepCrc16 _
    have h1 : T.beginCall.Writing (((T.beginCall.stepCrc8 c c.sync).stepCrc16 c c.sync).writeRaw c.sync) [c.sync] :=
      .inl ⟨by simp; omega, h0.writeRaw hc' c.sync (by simp; omega)⟩
    have h2 := ((h1.stepCrc8 (c := c) cmd).stepCrc16 (c := c) cmd).writeEsc (c := c) hc' cmd
    have h3 := ((h2.stepCrc8 (c := c) (sizeByte data)).stepCrc16 (c := c) (sizeByte data)).writeEsc (c := c) hc'
      (sizeByte data)
    have h4 := (h3.stepCrc16 (c := c) (headerCrc8 c cmd data)).writeEsc (c := c) hc' (headerCrc8 c cmd data)
    have h5 := h4.emitData (c := c) hc' (ds := data)
    have h6 := h5.writeEsc (c := c) hc' (hiOctet (frameCrc16 c cmd data))
    have h7 := h6.writeEsc (c := c) hc' (loOctet (frameCrc16 c cmd data))
    have hw : wire c.sync (frameOf c cmd data) = [c.sync] ++ escapeBytes c.sync [cmd] ++
        escapeBytes c.sync [sizeByte data] ++ escapeBytes c.sync [headerCrc8 c cmd data] ++
        escapeBytes c.sync data ++ escapeBytes c.sync [hiOctet (frameCrc16 c cmd data)] ++
        escapeBytes c.sync [loOctet (frameCrc16 c cmd data)] := by
      simp only [wire, frameOf, dataFrameBytes, headerBytes, List.cons_append, List.nil_append]
      rw [escapeBytes_cons _ cmd, escapeBytes_cons _ (sizeByte data), escapeBytes_cons _ (headerCrc8 c cmd data),
        escapeBytes_append, escapeBytes_cons _ (hiOctet _)]
      simp [List.append_assoc]
    rw [hw]
    have hcrc8 : (Ring.emitBoth c (sizeByte data) (Ring.emitBoth c cmd
        (((T.beginCall.stepCrc8 c c.sync).stepCrc16 c c.sync).writeRaw c.sync))).theCall.crc8 =
        headerCrc8 c cmd data := by
      simp [Ring.emitBoth, headerCrc8, crc8Fold, GenCall.start]
    have hcrc16 : (Ring.emitData c data (Ring.writeEsc c (Ring.stepCrc16 c (headerCrc8 c cmd data)
        (Ring.emitBoth c (sizeByte data) (Ring.emitBoth c cmd
        (((T.beginCall.stepCrc8 c c.sync).stepCrc16 c c.sync).writeRaw c.sync)))) (headerCrc8 c cmd data))).theCall.crc16 =
        frameCrc16 c cmd data := by
      simp [Ring.emitData_crc16, Ring.emitBoth, frameCrc16, crc16Fold, headerBytes, GenCall.start]
    have key := Ring.GenOut.of_writing (n := data.length) h7 (by simp) (by omega)
    simp only [Ring.stepCrc16_theCall, hcrc8, hcrc16, Ring.writeEsc_crc16]
    exact key

/-- The up-front check of a header-only call covers its doubling: it never fails late (R162). -/
theorem frameOf0_wire_length (c : Cfg) (cmd : Byte) (h : c.sync ≠ 0) :
    (wire c.sync (frameOf0 c cmd)).length ≤ 6 := by
  simp only [frameOf0, headerBytes, wire, escapeBytes, if_neg (Ne.symm h)]
  split <;> split <;> simp

end Sys2Proof.Machine
end

