-- ==== Sys2Proof/Laws/RingInv.lean ====
section
/-! SUPPORT. Every ring operation keeps the invariants of the ring (R144, R38). -/

namespace Sys2Proof.Machine

/-- An empty ring of a legal size. -/
theorem Ring.inv_reset {n : Nat} (h : 7 ≤ n) : (Ring.reset n).Inv where
  size_ge := h
  head_lt := by simp only [Ring.reset]; omega
  tail_lt := by simp only [Ring.reset]; omega
  buf_wf := rfl
  buf_below := Mem.below_nil n
  committed := by intro k hk; simp [Ring.used, Ring.reset] at hk
  call_inv := by intro g hg; cases hg

variable {T : Ring}

/-- The invariants do not look at who holds the lock but through a call in progress. -/
theorem Ring.Inv.setCall (h : T.Inv) (l : Lock) (call : Option GenCall)
    (hc : ∀ g, call = some g → l ≠ .free ∧ ∀ n, g.prov = .count n → n ≤ T.free ∧ ∀ k, k < n → T.buf.Written (T.slot k)) :
    ({ T with lock := l, call := call } : Ring).Inv where
  size_ge := h.size_ge
  head_lt := h.head_lt
  tail_lt := h.tail_lt
  buf_wf := h.buf_wf
  buf_below := h.buf_below
  committed := h.committed
  call_inv := hc

theorem Ring.Inv.claim (h : T.Inv) (who : Agent) : (T.claim who).Inv := h.setCall _ _ (by simp)
theorem Ring.Inv.release (h : T.Inv) : T.release.Inv := h.setCall _ _ (by simp)
theorem Ring.Inv.dropCall (h : T.Inv) : T.dropCall.Inv := h.setCall T.lock none (by simp)

/-- What the call in progress has counted is written, whether or not it has begun. -/
theorem Ring.Inv.theCall (h : T.Inv) {n : Nat} (hp : T.theCall.prov = .count n) :
    n ≤ T.free ∧ ∀ k, k < n → T.buf.Written (T.slot k) := by
  cases hc : T.call with
  | none =>
    rw [Ring.theCall, hc] at hp
    cases hp
    exact ⟨Nat.zero_le _, fun k hk => absurd hk (by omega)⟩
  | some g =>
    rw [Ring.theCall, hc] at hp
    exact (h.call_inv g hc).2 n hp

theorem Ring.Inv.setTheCall (h : T.Inv) (hl : T.lock ≠ .free) (g : GenCall)
    (hg : ∀ n, g.prov = .count n → n ≤ T.free ∧ ∀ k, k < n → T.buf.Written (T.slot k)) :
    ({ T with call := some g } : Ring).Inv :=
  h.setCall T.lock (some g) (by intro g' hg'; cases hg'; exact ⟨hl, hg⟩)

theorem Ring.Inv.beginCall (h : T.Inv) (hl : T.lock ≠ .free) : T.beginCall.Inv :=
  h.setTheCall hl _ (by intro n hn; cases hn; exact ⟨Nat.zero_le _, fun k hk => absurd hk (by omega)⟩)

theorem Ring.Inv.stepCrc8 (h : T.Inv) (hl : T.lock ≠ .free) (c : Cfg) (b : Byte) : (T.stepCrc8 c b).Inv :=
  h.setTheCall hl _ fun _ hn => h.theCall hn

theorem Ring.Inv.stepCrc16 (h : T.Inv) (hl : T.lock ≠ .free) (c : Cfg) (b : Byte) : (T.stepCrc16 c b).Inv :=
  h.setTheCall hl _ fun _ hn => h.theCall hn

theorem Ring.Inv.poison (h : T.Inv) (hl : T.lock ≠ .free) : (T.setProv .poison).Inv :=
  h.setTheCall hl _ (by intro n hn; cases hn)

/-- A byte written into a free slot. -/
theorem Ring.Inv.put (h : T.Inv) (k : Nat) (b : Byte) : (T.put k b).Inv where
  size_ge := h.size_ge
  head_lt := h.head_lt
  tail_lt := h.tail_lt
  buf_wf := Mem.wf_write _ _ _ h.buf_wf
  buf_below := Mem.below_write b (Ring.slot_lt h.cursorsIn k) h.buf_below
  committed := fun j hj => Mem.written_write _ b (h.committed j hj)
  call_inv := by
    intro g hg
    obtain ⟨hl, hw⟩ := h.call_inv g hg
    exact ⟨hl, fun n hn => ⟨(hw n hn).1, fun j hj => Mem.written_write _ b ((hw n hn).2 j hj)⟩⟩

/-- A byte written at the provisional count, and the count moved behind it. -/
theorem Ring.Inv.putNext (h : T.Inv) (hl : T.lock ≠ .free) {n : Nat} (b : Byte) (hp : T.theCall.prov = .count n)
    (hf : n + 1 ≤ T.free) : ((T.put n b).setProv (.count (n + 1))).Inv := by
  refine (h.put n b).setTheCall hl _ ?_
  intro m hm
  cases hm
  refine ⟨hf, fun k hk => ?_⟩
  by_cases hkn : k = n
  · subst hkn; exact Mem.written_write_same _ _ _
  · exact Mem.written_write _ b ((h.theCall hp).2 k (by omega))

theorem Ring.Inv.writeRaw (h : T.Inv) (hl : T.lock ≠ .free) (b : Byte) : (T.writeRaw b).Inv := by
  rcases Ring.writeRaw_cases T b with ⟨he, -⟩ | ⟨n, hp, hf, he⟩ <;> rw [he]
  · exact h.poison hl
  · exact h.putNext hl b hp hf

theorem Ring.Inv.writeEsc (h : T.Inv) (hl : T.lock ≠ .free) (c : Cfg) (b : Byte) : (T.writeEsc c b).Inv := by
  rcases Ring.writeEsc_cases c T b with ⟨he, -⟩ | ⟨n, -, hp, hf, he⟩ | ⟨n, -, hp, hf, he⟩ <;> rw [he]
  · exact h.poison hl
  · exact h.putNext hl b hp hf
  · have h1 := h.putNext hl b hp (by omega)
    have h2 := h1.putNext hl (n := n + 1) b (by simp) (show n + 1 + 1 ≤ T.free from hf)
    simpa [Ring.setProv, Ring.put, Ring.theCall, Ring.slot] using h2

/-- The committed slots after a commit are the old ones and the ones the call has written. -/
theorem Ring.used_commit (h : T.CursorsIn) {n : Nat} (hn : n ≤ T.free) :
    ({ T.dropCall with head := (T.head + n) % T.size } : Ring).used = T.used + n := by
  have h1 := h.1; have h2 := h.2
  have hf := Ring.free_lt h
  have hc : ({ T.dropCall with head := (T.head + n) % T.size } : Ring).CursorsIn :=
    ⟨Nat.mod_lt _ (by omega), h2⟩
  rw [Ring.used_eq hc, Ring.used_eq h]
  rw [Ring.free_eq h] at hn
  simp only [Ring.dropCall]
  rw [mod_ring (a := T.head + n) (by split at hn <;> omega)]
  split at hn <;> split <;> split <;> omega

/-- A slot behind the old committed ones is a slot the call has written. -/
theorem Ring.committed_slot (h : T.CursorsIn) {k : Nat} (hk : T.used ≤ k) :
    (T.tail + k) % T.size = T.slot (k - T.used) := by
  have h1 := h.1; have h2 := h.2
  unfold Ring.slot
  rw [Ring.used_eq h] at hk ⊢
  split at hk
  · next hle => rw [if_pos hle]; congr 1; omega
  · next hlt =>
    rw [if_neg hlt]
    have : T.tail + k = T.head + (k - (T.size + T.head - T.tail)) + T.size := by omega
    rw [this, Nat.add_mod_right]

theorem Ring.Inv.commit (h : T.Inv) : T.commit.1.Inv := by
  rcases T.commit_cases with ⟨-, he⟩ | ⟨n, hp, he⟩ <;> rw [he]
  · exact h.dropCall
  · obtain ⟨hn, hw⟩ := h.theCall hp
    have hsz := h.head_lt
    exact {
      size_ge := h.size_ge
      head_lt := Nat.mod_lt _ (by omega)
      tail_lt := h.tail_lt
      buf_wf := h.buf_wf
      buf_below := h.buf_below
      committed := by
        intro k hk
        rw [Ring.used_commit h.cursorsIn hn] at hk
        by_cases hku : k < T.used
        · exact h.committed k hku
        · show T.buf.Written ((T.tail + k) % T.size)
          rw [Ring.committed_slot h.cursorsIn (by omega)]
          exact hw _ (by omega)
      call_inv := by intro g hg; cases hg }

/-- The counts after an advance. -/
theorem Ring.used_advance (h : T.CursorsIn) {n : Nat} (hn : n ≤ T.used) : (T.advance n).used = T.used - n := by
  have h1 := h.1; have h2 := h.2
  have hu := Ring.used_lt h
  have hc : (T.advance n).CursorsIn := ⟨h1, Nat.mod_lt _ (by omega)⟩
  have e : (T.advance n).used = if (T.tail + n) % T.size ≤ T.head then T.head - (T.tail + n) % T.size
      else T.size + T.head - (T.tail + n) % T.size := Ring.used_eq hc
  rw [e, Ring.used_eq h]
  rw [Ring.used_eq h] at hn
  rw [mod_ring (a := T.tail + n) (by split at hn <;> omega)]
  split at hn <;> split <;> split <;> omega

theorem Ring.free_advance (h : T.CursorsIn) {n : Nat} (hn : n ≤ T.used) : (T.advance n).free = T.free + n := by
  have h1 := h.1; have h2 := h.2
  have hu := Ring.used_lt h
  have hc : (T.advance n).CursorsIn := ⟨h1, Nat.mod_lt _ (by omega)⟩
  have e : (T.advance n).free = if (T.tail + n) % T.size ≤ T.head then T.size + (T.tail + n) % T.size - T.head - 1
      else (T.tail + n) % T.size - T.head - 1 := Ring.free_eq hc
  rw [e, Ring.free_eq h]
  rw [Ring.used_eq h] at hn
  rw [mod_ring (a := T.tail + n) (by split at hn <;> omega)]
  split at hn <;> split <;> split <;> omega

theorem Ring.Inv.advance (h : T.Inv) {n : Nat} (hn : n ≤ T.used) : (T.advance n).Inv where
  size_ge := h.size_ge
  head_lt := h.head_lt
  tail_lt := Nat.mod_lt _ (by have := h.head_lt; omega)
  buf_wf := h.buf_wf
  buf_below := h.buf_below
  committed := by
    intro k hk
    rw [Ring.used_advance h.cursorsIn hn] at hk
    have := h.committed (n + k) (by omega)
    show T.buf.Written (((T.tail + n) % T.size + k) % T.size)
    rw [Nat.mod_add_mod, Nat.add_assoc]
    exact this
  call_inv := by
    intro g hg
    obtain ⟨hl, hw⟩ := h.call_inv g hg
    refine ⟨hl, fun m hm => ⟨?_, (hw m hm).2⟩⟩
    rw [Ring.free_advance h.cursorsIn hn]
    have := (hw m hm).1; omega

/-- The free and the used slots and the open one are all the slots (R131). -/
theorem Ring.used_add_free (h : T.CursorsIn) : T.used + T.free = T.size - 1 := by
  have h1 := h.1; have h2 := h.2
  rw [Ring.used_eq h, Ring.free_eq h]
  split <;> omega

/-! ### Generator calls -/

theorem Ring.Inv.emitBoth (h : T.Inv) (hl : T.lock ≠ .free) (c : Cfg) (b : Byte) : (Ring.emitBoth c b T).Inv :=
  ((h.stepCrc8 hl c b).stepCrc16 hl c b).writeEsc hl c b

@[simp] theorem Ring.emitBoth_lock (c : Cfg) (b : Byte) (T : Ring) : (Ring.emitBoth c b T).lock = T.lock := by
  simp [Ring.emitBoth]

theorem Ring.Inv.emitData (c : Cfg) : ∀ {ds : List Byte} {T : Ring}, T.Inv → T.lock ≠ .free → (T.emitData c ds).Inv := by
  intro ds
  induction ds with
  | nil => intro T h _; exact h
  | cons d ds ih =>
    intro T h hl
    exact ih ((h.stepCrc16 hl c d).writeEsc hl c d) (by simpa using hl)

theorem Ring.Inv.finish (h : T.Inv) : T.finish.1.Inv := by
  have : T.finish.1 = T.commit.1 := by unfold Ring.finish; split <;> rfl
  rw [this]; exact h.commit

theorem Ring.Inv.genHeaderOnly (h : T.Inv) (hl : T.lock ≠ .free) (c : Cfg) (cmd : Byte) :
    (T.genHeaderOnly c cmd).1.Inv := by
  unfold Ring.genHeaderOnly
  split
  · exact h.dropCall
  · have h1 := ((h.beginCall hl).stepCrc8 hl c c.sync).writeRaw hl c.sync
    have h2 := (h1.stepCrc8 (by simpa using hl) c cmd).writeEsc (by simpa using hl) c cmd
    have h3 := (h2.stepCrc8 (by simpa using hl) c 0x00).writeEsc (by simpa using hl) c 0x00
    exact (h3.writeEsc (by simpa using hl) c _).finish

theorem Ring.Inv.genGeneric (h : T.Inv) (hl : T.lock ≠ .free) (c : Cfg) (cmd : Byte) (data : List Byte) :
    (T.genGeneric c cmd data).1.Inv := by
  unfold Ring.genGeneric
  split
  · exact h.dropCall
  · split
    · exact h.genHeaderOnly hl c cmd
    · split
      · exact h.dropCall
      · have h1 := (((h.beginCall hl).stepCrc8 hl c c.sync).stepCrc16 hl c c.sync).writeRaw hl c.sync
        have h3 := (h1.emitBoth (by simpa using hl) c cmd).emitBoth (by simpa using hl) c (sizeByte data)
        refine Ring.Inv.finish (Ring.Inv.writeEsc (Ring.Inv.writeEsc (Ring.Inv.emitData c ?_ ?_) ?_ c _) ?_ c _)
        · exact (h3.stepCrc16 (by simpa using hl) c _).writeEsc (by simpa using hl) c _
        all_goals simpa using hl

theorem Ring.Inv.generate (h : T.Inv) (hl : T.lock ≠ .free) (c : Cfg) (cmd : Byte) (payload : Option (List Byte)) :
    (T.generate c cmd payload).1.Inv := by
  cases payload with
  | none => exact h.genHeaderOnly hl c cmd
  | some data => exact h.genGeneric hl c cmd data

end Sys2Proof.Machine
end

