-- ==== Sys2Proof/Laws/State.lean ====
section
/-! SUPPORT. What each update of a state leaves: one lemma per update and view. -/

namespace Sys2Proof.Machine

section ports
variable (s : State) (p q : PortId) (f : Port → Port)

@[simp] theorem State.modifyPort_cfg : (s.modifyPort p f).cfg = s.cfg := rfl
@[simp] theorem State.modifyPort_ctxs : (s.modifyPort p f).ctxs = s.ctxs := rfl
@[simp] theorem State.modifyPort_sched : (s.modifyPort p f).sched = s.sched := rfl
@[simp] theorem State.modifyPort_freeIx : (s.modifyPort p f).freeIx = s.freeIx := rfl
@[simp] theorem State.modifyPort_ctx (a : Agent) : (s.modifyPort p f).ctx a = s.ctx a := rfl

@[simp] theorem State.modifyPort_length : (s.modifyPort p f).ports.length = s.ports.length := by
  simp [State.modifyPort]

/-- A port record after one record was changed. -/
theorem State.port?_modifyPort :
    (s.modifyPort p f).port? q = if p = q then (s.port? q).map f else s.port? q := by
  simp only [State.port?, State.modifyPort, List.getElem?_modify]
  split
  · rfl
  · simp

@[simp] theorem State.port?_modifyPort_same : (s.modifyPort p f).port? p = (s.port? p).map f := by
  simp [State.port?_modifyPort]

theorem State.port?_modifyPort_other {p q : PortId} (h : p ≠ q) : (s.modifyPort p f).port? q = s.port? q := by
  simp [State.port?_modifyPort, h]

end ports

section views
variable (s : State) (p : PortId)

/-- A view of the ports' receivers, rings or drain tasks does not see a change of another part. -/
theorem State.rx?_modifyPort {f : Port → Port} (hf : ∀ P, (f P).rx = P.rx) (q : PortId) :
    (s.modifyPort p f).rx? q = s.rx? q := by
  simp only [State.rx?, State.port?_modifyPort]
  split <;> cases s.port? q <;> simp [hf]

theorem State.tx?_modifyPort {f : Port → Port} (hf : ∀ P, (f P).tx = P.tx) (q : PortId) :
    (s.modifyPort p f).tx? q = s.tx? q := by
  simp only [State.tx?, State.port?_modifyPort]
  split <;> cases s.port? q <;> simp [hf]

theorem State.drain?_modifyPort {f : Port → Port} (hf : ∀ P, (f P).drain = P.drain) (q : PortId) :
    (s.modifyPort p f).drain? q = s.drain? q := by
  simp only [State.drain?, State.port?_modifyPort]
  split <;> cases s.port? q <;> simp [hf]

@[simp] theorem State.setRx_rx? (r : Rx) {P : Port} (h : s.port? p = some P) : (s.setRx p r).rx? p = some r := by
  simp [State.rx?, State.setRx, h]

@[simp] theorem State.setTx_tx? (T : Ring) {P : Port} (h : s.port? p = some P) : (s.setTx p T).tx? p = some T := by
  simp [State.tx?, State.setTx, h]

@[simp] theorem State.setDrain_drain? (d : Drain) {P : Port} (h : s.port? p = some P) :
    (s.setDrain p d).drain? p = some d := by
  simp [State.drain?, State.setDrain, h]

theorem State.setRx_rx?_other (r : Rx) {q : PortId} (h : p ≠ q) : (s.setRx p r).rx? q = s.rx? q := by
  simp [State.rx?, State.setRx, State.port?_modifyPort_other _ _ h]

theorem State.setTx_tx?_other (T : Ring) {q : PortId} (h : p ≠ q) : (s.setTx p T).tx? q = s.tx? q := by
  simp [State.tx?, State.setTx, State.port?_modifyPort_other _ _ h]

theorem State.setDrain_drain?_other (d : Drain) {q : PortId} (h : p ≠ q) : (s.setDrain p d).drain? q = s.drain? q := by
  simp [State.drain?, State.setDrain, State.port?_modifyPort_other _ _ h]

@[simp] theorem State.setRx_tx? (r : Rx) (q : PortId) : (s.setRx p r).tx? q = s.tx? q :=
  s.tx?_modifyPort p (f := fun P => { P with rx := some r }) (fun _ => rfl) q
@[simp] theorem State.setRx_drain? (r : Rx) (q : PortId) : (s.setRx p r).drain? q = s.drain? q :=
  s.drain?_modifyPort p (f := fun P => { P with rx := some r }) (fun _ => rfl) q
@[simp] theorem State.setRx_cfg (r : Rx) : (s.setRx p r).cfg = s.cfg := rfl
@[simp] theorem State.setRx_sched (r : Rx) : (s.setRx p r).sched = s.sched := rfl
@[simp] theorem State.setRx_freeIx (r : Rx) : (s.setRx p r).freeIx = s.freeIx := rfl
@[simp] theorem State.setRx_ctx (r : Rx) (a : Agent) : (s.setRx p r).ctx a = s.ctx a := rfl

@[simp] theorem State.setTx_rx? (T : Ring) (q : PortId) : (s.setTx p T).rx? q = s.rx? q :=
  s.rx?_modifyPort p (f := fun P => { P with tx := some T }) (fun _ => rfl) q
@[simp] theorem State.setTx_drain? (T : Ring) (q : PortId) : (s.setTx p T).drain? q = s.drain? q :=
  s.drain?_modifyPort p (f := fun P => { P with tx := some T }) (fun _ => rfl) q
@[simp] theorem State.setTx_cfg (T : Ring) : (s.setTx p T).cfg = s.cfg := rfl
@[simp] theorem State.setTx_sched (T : Ring) : (s.setTx p T).sched = s.sched := rfl
@[simp] theorem State.setTx_freeIx (T : Ring) : (s.setTx p T).freeIx = s.freeIx := rfl
@[simp] theorem State.setTx_ctx (T : Ring) (a : Agent) : (s.setTx p T).ctx a = s.ctx a := rfl

@[simp] theorem State.setDrain_rx? (d : Drain) (q : PortId) : (s.setDrain p d).rx? q = s.rx? q :=
  s.rx?_modifyPort p (f := fun P => { P with drain := some d }) (fun _ => rfl) q
@[simp] theorem State.setDrain_tx? (d : Drain) (q : PortId) : (s.setDrain p d).tx? q = s.tx? q :=
  s.tx?_modifyPort p (f := fun P => { P with drain := some d }) (fun _ => rfl) q
@[simp] theorem State.setDrain_cfg (d : Drain) : (s.setDrain p d).cfg = s.cfg := rfl
@[simp] theorem State.setDrain_sched (d : Drain) : (s.setDrain p d).sched = s.sched := rfl
@[simp] theorem State.setDrain_freeIx (d : Drain) : (s.setDrain p d).freeIx = s.freeIx := rfl
@[simp] theorem State.setDrain_ctx (d : Drain) (a : Agent) : (s.setDrain p d).ctx a = s.ctx a := rfl

@[simp] theorem State.setPending_rx? (v : Bool) (q : PortId) : (s.setPending p v).rx? q = s.rx? q :=
  s.rx?_modifyPort p (f := fun P => { P with pending := v }) (fun _ => rfl) q
@[simp] theorem State.setPending_tx? (v : Bool) (q : PortId) : (s.setPending p v).tx? q = s.tx? q :=
  s.tx?_modifyPort p (f := fun P => { P with pending := v }) (fun _ => rfl) q
@[simp] theorem State.setPending_drain? (v : Bool) (q : PortId) : (s.setPending p v).drain? q = s.drain? q :=
  s.drain?_modifyPort p (f := fun P => { P with pending := v }) (fun _ => rfl) q
@[simp] theorem State.setPending_cfg (v : Bool) : (s.setPending p v).cfg = s.cfg := rfl
@[simp] theorem State.setPending_sched (v : Bool) : (s.setPending p v).sched = s.sched := rfl
@[simp] theorem State.setPending_freeIx (v : Bool) : (s.setPending p v).freeIx = s.freeIx := rfl
@[simp] theorem State.setPending_ctx (v : Bool) (a : Agent) : (s.setPending p v).ctx a = s.ctx a := rfl

@[simp] theorem State.setEnv_rx? (e : Env) (q : PortId) : (s.setEnv p e).rx? q = s.rx? q :=
  s.rx?_modifyPort p (f := fun P => { P with env := e }) (fun _ => rfl) q
@[simp] theorem State.setEnv_tx? (e : Env) (q : PortId) : (s.setEnv p e).tx? q = s.tx? q :=
  s.tx?_modifyPort p (f := fun P => { P with env := e }) (fun _ => rfl) q
@[simp] theorem State.setEnv_drain? (e : Env) (q : PortId) : (s.setEnv p e).drain? q = s.drain? q :=
  s.drain?_modifyPort p (f := fun P => { P with env := e }) (fun _ => rfl) q
@[simp] theorem State.setEnv_cfg (e : Env) : (s.setEnv p e).cfg = s.cfg := rfl
@[simp] theorem State.setEnv_sched (e : Env) : (s.setEnv p e).sched = s.sched := rfl
@[simp] theorem State.setEnv_freeIx (e : Env) : (s.setEnv p e).freeIx = s.freeIx := rfl
@[simp] theorem State.setEnv_ctx (e : Env) (a : Agent) : (s.setEnv p e).ctx a = s.ctx a := rfl

@[simp] theorem State.emit_rx? (es : List Event) (q : PortId) : (s.emit p es).rx? q = s.rx? q :=
  s.rx?_modifyPort p (f := fun P => { P with trace := P.trace ++ es }) (fun _ => rfl) q
@[simp] theorem State.emit_tx? (es : List Event) (q : PortId) : (s.emit p es).tx? q = s.tx? q :=
  s.tx?_modifyPort p (f := fun P => { P with trace := P.trace ++ es }) (fun _ => rfl) q
@[simp] theorem State.emit_drain? (es : List Event) (q : PortId) : (s.emit p es).drain? q = s.drain? q :=
  s.drain?_modifyPort p (f := fun P => { P with trace := P.trace ++ es }) (fun _ => rfl) q
@[simp] theorem State.emit_cfg (es : List Event) : (s.emit p es).cfg = s.cfg := rfl
@[simp] theorem State.emit_sched (es : List Event) : (s.emit p es).sched = s.sched := rfl
@[simp] theorem State.emit_freeIx (es : List Event) : (s.emit p es).freeIx = s.freeIx := rfl
@[simp] theorem State.emit_ctx (es : List Event) (a : Agent) : (s.emit p es).ctx a = s.ctx a := rfl

@[simp] theorem State.boundary_rx? (cs : List BoundaryCall) (q : PortId) : (s.boundary p cs).rx? q = s.rx? q :=
  s.rx?_modifyPort p (f := fun P => { P with calls := P.calls ++ cs }) (fun _ => rfl) q
@[simp] theorem State.boundary_tx? (cs : List BoundaryCall) (q : PortId) : (s.boundary p cs).tx? q = s.tx? q :=
  s.tx?_modifyPort p (f := fun P => { P with calls := P.calls ++ cs }) (fun _ => rfl) q
@[simp] theorem State.boundary_drain? (cs : List BoundaryCall) (q : PortId) : (s.boundary p cs).drain? q = s.drain? q :=
  s.drain?_modifyPort p (f := fun P => { P with calls := P.calls ++ cs }) (fun _ => rfl) q
@[simp] theorem State.boundary_cfg (cs : List BoundaryCall) : (s.boundary p cs).cfg = s.cfg := rfl
@[simp] theorem State.boundary_sched (cs : List BoundaryCall) : (s.boundary p cs).sched = s.sched := rfl
@[simp] theorem State.boundary_freeIx (cs : List BoundaryCall) : (s.boundary p cs).freeIx = s.freeIx := rfl
@[simp] theorem State.boundary_ctx (cs : List BoundaryCall) (a : Agent) : (s.boundary p cs).ctx a = s.ctx a := rfl

end views

section contexts
variable (s : State) (a b : Agent) (c : Ctx)

theorem ctxOf_putCtx (l : List (Agent × Ctx)) : ctxOf (putCtx l a c) b = if a = b then c else ctxOf l b := by
  induction l with
  | nil => simp [putCtx, ctxOf]
  | cons x l ih =>
    obtain ⟨k, d⟩ := x
    simp only [putCtx]
    by_cases hk : k = a
    · subst hk; simp only [if_pos, ctxOf]; split <;> rfl
    · simp only [hk, if_false, ctxOf, ih]
      by_cases hkb : k = b
      · subst hkb; simp [Ne.symm hk]
      · simp [hkb]

@[simp] theorem State.setCtx_ctx_same : (s.setCtx a c).ctx a = c := by simp [State.setCtx, State.ctx, ctxOf_putCtx]
theorem State.setCtx_ctx : (s.setCtx a c).ctx b = if a = b then c else s.ctx b := by
  simp [State.setCtx, State.ctx, ctxOf_putCtx]
@[simp] theorem State.setCtx_cfg : (s.setCtx a c).cfg = s.cfg := rfl
@[simp] theorem State.setCtx_ports : (s.setCtx a c).ports = s.ports := rfl
@[simp] theorem State.setCtx_sched : (s.setCtx a c).sched = s.sched := rfl
@[simp] theorem State.setCtx_freeIx : (s.setCtx a c).freeIx = s.freeIx := rfl
@[simp] theorem State.setRet_cfg (v : Ret) : (s.setRet a v).cfg = s.cfg := rfl
@[simp] theorem State.setRet_ports (v : Ret) : (s.setRet a v).ports = s.ports := rfl
@[simp] theorem State.setRet_ret (v : Ret) : ((s.setRet a v).ctx a).ret = v := by simp [State.setRet]
@[simp] theorem State.setRet_todo (v : Ret) : ((s.setRet a v).ctx b).todo = (s.ctx b).todo := by
  simp only [State.setRet, State.setCtx_ctx]
  split
  · next h => rw [h]
  · rfl
@[simp] theorem State.setTodo_cfg (is : List Instr) : (s.setTodo a is).cfg = s.cfg := rfl
@[simp] theorem State.setTodo_ports (is : List Instr) : (s.setTodo a is).ports = s.ports := rfl

@[simp] theorem State.pushWork_cfg (is : List Instr) : (s.pushWork a is).cfg = s.cfg := by cases is <;> rfl
@[simp] theorem State.pushWork_ports (is : List Instr) : (s.pushWork a is).ports = s.ports := by cases is <;> rfl
@[simp] theorem State.pushWork_sched (is : List Instr) : (s.pushWork a is).sched = s.sched := by cases is <;> rfl
@[simp] theorem State.pushWork_freeIx (is : List Instr) : (s.pushWork a is).freeIx = s.freeIx := by cases is <;> rfl

/-- What an agent has to do after work was put in front of an agent's. -/
theorem State.pushWork_todo (is : List Instr) :
    ((s.pushWork a is).ctx b).todo = if a = b then is ++ (s.ctx b).todo else (s.ctx b).todo := by
  cases is with
  | nil => simp [State.pushWork]
  | cons i is =>
    simp only [State.pushWork, State.setTodo, State.setCtx_ctx]
    by_cases h : a = b
    · subst h; simp
    · simp [h]

/-- Views of the ports do not see the agents' records. -/
theorem State.port?_of_ports {s t : State} (h : s.ports = t.ports) (p : PortId) : s.port? p = t.port? p := by
  simp [State.port?, h]

@[simp] theorem State.setRet_port? (v : Ret) (p : PortId) : (s.setRet a v).port? p = s.port? p := rfl
@[simp] theorem State.setTodo_port? (is : List Instr) (p : PortId) : (s.setTodo a is).port? p = s.port? p := rfl
@[simp] theorem State.pushWork_port? (is : List Instr) (p : PortId) : (s.pushWork a is).port? p = s.port? p :=
  State.port?_of_ports (State.pushWork_ports s a is) p
@[simp] theorem State.setRet_rx? (v : Ret) (p : PortId) : (s.setRet a v).rx? p = s.rx? p := rfl
@[simp] theorem State.setTodo_rx? (is : List Instr) (p : PortId) : (s.setTodo a is).rx? p = s.rx? p := rfl
@[simp] theorem State.pushWork_rx? (is : List Instr) (p : PortId) : (s.pushWork a is).rx? p = s.rx? p := by
  simp [State.rx?]
@[simp] theorem State.setRet_tx? (v : Ret) (p : PortId) : (s.setRet a v).tx? p = s.tx? p := rfl
@[simp] theorem State.setTodo_tx? (is : List Instr) (p : PortId) : (s.setTodo a is).tx? p = s.tx? p := rfl
@[simp] theorem State.pushWork_tx? (is : List Instr) (p : PortId) : (s.pushWork a is).tx? p = s.tx? p := by
  simp [State.tx?]
@[simp] theorem State.setRet_drain? (v : Ret) (p : PortId) : (s.setRet a v).drain? p = s.drain? p := rfl
@[simp] theorem State.setTodo_drain? (is : List Instr) (p : PortId) : (s.setTodo a is).drain? p = s.drain? p := rfl
@[simp] theorem State.pushWork_drain? (is : List Instr) (p : PortId) : (s.pushWork a is).drain? p = s.drain? p := by
  simp [State.drain?]
@[simp] theorem State.setRet_sched (v : Ret) : (s.setRet a v).sched = s.sched := rfl
@[simp] theorem State.setTodo_sched (is : List Instr) : (s.setTodo a is).sched = s.sched := rfl
@[simp] theorem State.setRet_freeIx (v : Ret) : (s.setRet a v).freeIx = s.freeIx := rfl
@[simp] theorem State.setTodo_freeIx (is : List Instr) : (s.setTodo a is).freeIx = s.freeIx := rfl

end contexts

/-- A change of one port record after another change of it. -/
theorem State.modifyPort_modifyPort (s : State) (p : PortId) (f g : Port → Port) :
    (s.modifyPort p f).modifyPort p g = s.modifyPort p (g ∘ f) := by
  have : (s.ports.modify p f).modify p g = s.ports.modify p (g ∘ f) := by
    apply List.ext_getElem?
    intro i
    simp only [List.getElem?_modify]
    split <;> simp [Function.comp_def]
  simp only [State.modifyPort, this]

/-- A change that leaves the record as it is changes nothing. -/
theorem State.modifyPort_id (s : State) (p : PortId) (f : Port → Port) (h : ∀ P, s.port? p = some P → f P = P) :
    s.modifyPort p f = s := by
  have : s.ports.modify p f = s.ports := by
    apply List.ext_getElem?
    intro i
    rw [List.getElem?_modify]
    split
    · next hi =>
      subst hi
      cases hP : s.ports[p]? with
      | none => rfl
      | some P => simp [h P hP]
    · simp
  simp only [State.modifyPort, this]

theorem putCtx_putCtx (l : List (Agent × Ctx)) (a : Agent) (c d : Ctx) : putCtx (putCtx l a c) a d = putCtx l a d := by
  induction l with
  | nil => simp [putCtx]
  | cons x l ih =>
    obtain ⟨k, e⟩ := x
    by_cases hk : k = a <;> simp [putCtx, hk, ih]

/-- A port with receiver registers has a record. -/
theorem State.port?_of_rx? {s : State} {p : PortId} {r : Rx} (h : s.rx? p = some r) :
    ∃ P, s.port? p = some P ∧ P.rx = some r := by
  simpa [State.rx?, Option.bind_eq_some_iff] using h

/-- A port with a ring has a record. -/
theorem State.port?_of_tx? {s : State} {p : PortId} {T : Ring} (h : s.tx? p = some T) :
    ∃ P, s.port? p = some P ∧ P.tx = some T := by
  simpa [State.tx?, Option.bind_eq_some_iff] using h

/-- A port with a drain task has a record. -/
theorem State.port?_of_drain? {s : State} {p : PortId} {d : Drain} (h : s.drain? p = some d) :
    ∃ P, s.port? p = some P ∧ P.drain = some d := by
  simpa [State.drain?, Option.bind_eq_some_iff] using h

end Sys2Proof.Machine
end

