-- ==== Sys2Proof/Laws/Ops.lean ====
section
/-! SUPPORT. What the shared operations over states can do: one lemma each, of the form "if it answers next t, then",
and what each update of a state does to the invariants. -/

namespace Sys2Proof.Machine

variable {s t : State} {p : PortId} {who : Agent}

/-! ### Operations that continue with a unit -/

theorem State.withRing_next {k : Ring → Result} (h : s.withRing p k = .next t) :
    ∃ T, s.tx? p = some T ∧ k T = .next t := by
  unfold State.withRing at h
  split at h
  · next T hT => exact ⟨T, hT, h⟩
  · cases h

theorem State.withHeldRing_next {k : Ring → Result} (h : s.withHeldRing who p k = .next t) :
    ∃ T, s.tx? p = some T ∧ T.lock = .held who ∧ k T = .next t := by
  obtain ⟨T, hT, hk⟩ := State.withRing_next h
  split at hk
  · next hl => exact ⟨T, hT, by simpa [Ring.heldBy] using hl, hk⟩
  · cases hk

/-- What a read of a run can do: the drain task gets the bytes, of committed slots when the run is inside the array. -/
theorem execCbReadRun_next {start len : Nat} (h : execCbReadRun who p start len s = .next t) :
    ∃ T bs, s.tx? p = some T ∧ who = .drain p ∧ (start + len ≤ T.size → T.isCommittedRun start len = true) ∧
      T.readRun p start len = .ok bs ∧ t = s.setRet who (.bytes bs) := by
  obtain ⟨T, hT, hk⟩ := State.withRing_next h
  split at hk
  · next hw =>
    split at hk
    · cases hk
    · next hc =>
      split at hk
      · cases hk
      · next bs hb =>
        cases hk
        exact ⟨T, bs, hT, hw, fun hn => by simpa [hn] using hc, hb, rfl⟩
  · cases hk

theorem State.withDrain_next {k : Drain → Result} (h : s.withDrain p k = .next t) :
    ∃ d, s.drain? p = some d ∧ k d = .next t := by
  unfold State.withDrain at h
  split at h
  · next d hd => exact ⟨d, hd, h⟩
  · cases h

/-- A decoder operation writes the registers its function answers, emits its events and leaves its calls to make. -/
theorem State.decoder_next {f : Cfg → Rx → Except Fault RxOut} (h : s.decoder p f = .next t) :
    ∃ r o, s.rx? p = some r ∧ f s.cfg r = .ok o ∧
      t = ((s.setRx p o.rx).emit p o.events).pushWork (.decode p) o.work := by
  unfold State.decoder at h
  split at h
  · cases h
  · next r hr =>
    split at h
    · cases h
    · next o ho => cases h; exact ⟨r, o, hr, ho, rfl⟩

theorem State.withRing_eq {k : Ring → Result} {T : Ring} (h : s.tx? p = some T) : s.withRing p k = k T := by
  simp [State.withRing, h]

theorem State.withHeldRing_eq {k : Ring → Result} {T : Ring} (h : s.tx? p = some T) (hl : T.lock = .held who) :
    s.withHeldRing who p k = k T := by
  simp [State.withHeldRing, State.withRing, h, Ring.heldBy, hl]

theorem State.withDrain_eq {k : Drain → Result} {d : Drain} (h : s.drain? p = some d) : s.withDrain p k = k d := by
  simp [State.withDrain, h]

theorem State.decoder_eq {f : Cfg → Rx → Except Fault RxOut} {r : Rx} {o : RxOut} (h : s.rx? p = some r)
    (ho : f s.cfg r = .ok o) :
    s.decoder p f = .next (((s.setRx p o.rx).emit p o.events).pushWork (.decode p) o.work) := by
  simp [State.decoder, h, ho]

/-- Everything `generate_and_send` can do; it always answers a next state (R241, R278). -/
theorem State.generateAndSend_cases (s : State) (self : Instr) (who : Agent) (cmd : Byte) (p : PortId)
    (data : List Byte) :
    (s.tx? p = none ∧ s.generateAndSend self who cmd p data = .next (s.setRet who (.bool false))) ∨
    ∃ T, s.tx? p = some T ∧
      ((lookupGen s.cfg (cmdIdOf cmd).toNat = none ∧
          s.generateAndSend self who cmd p data = .next (s.setRet who (.bool false))) ∨
       ∃ g, lookupGen s.cfg (cmdIdOf cmd).toNat = some g ∧
        ((∃ x, T.lock = .held x ∧ s.generateAndSend self who cmd p data = .next (s.waitAt who self)) ∨
         (T.lock = .free ∧ s.generateAndSend self who cmd p data =
            .next ((s.payloadTaken g).generateAndRelease who cmd p (s.payload (cmdIdOf cmd).toNat data g) T)))) := by
  unfold State.generateAndSend
  cases hT : s.tx? p with
  | none => exact .inl ⟨rfl, rfl⟩
  | some T =>
    refine .inr ⟨T, rfl, ?_⟩
    cases hg : lookupGen s.cfg (cmdIdOf cmd).toNat with
    | none => exact .inl ⟨rfl, rfl⟩
    | some g =>
      refine .inr ⟨g, rfl, ?_⟩
      cases hl : T.lock with
      | held x => exact .inl ⟨x, rfl, by simp only [hl]⟩
      | free => exact .inr ⟨rfl, by simp only [hl]⟩

@[simp] theorem State.payloadTaken_cfg (s : State) (g : Generator) : (s.payloadTaken g).cfg = s.cfg := by
  cases g <;> rfl
@[simp] theorem State.payloadTaken_ports (s : State) (g : Generator) : (s.payloadTaken g).ports = s.ports := by
  cases g <;> rfl
@[simp] theorem State.payloadTaken_ctx (s : State) (g : Generator) (a : Agent) :
    (s.payloadTaken g).ctx a = s.ctx a := by
  cases g <;> rfl

/-- A table query answers an entry of the table or nothing; id 0 and ids out of bounds have none (R221). -/
theorem tableQuery_some {α : Type} {len : Nat} {table : List (Option α)} {id : Nat} {x : α}
    (h : tableQuery len table id = some x) : id ≠ 0 ∧ id < len ∧ table[id]? = some (some x) := by
  unfold tableQuery at h
  split at h
  · cases h
  · next h0 =>
    split at h
    · next hlt => exact ⟨h0, hlt, by simpa [Option.join_eq_some_iff] using h⟩
    · cases h

/-! ### The invariants and the updates of a state -/

/-- The invariants look at the configuration and the port records only. -/
theorem State.Inv.congr (h : s.Inv) (hc : t.cfg = s.cfg) (hp : t.ports = s.ports) : t.Inv where
  cfg_wf := by rw [hc]; exact h.cfg_wf
  ports_le := by rw [hp]; exact h.ports_le
  ports_inv := by
    intro q P hq
    rw [hc]
    exact h.ports_inv q P (by rw [State.port?_of_ports hp] at hq; exact hq)

theorem State.Inv.modifyPort (h : s.Inv) {f : Port → Port}
    (hf : ∀ P, s.port? p = some P → P.Inv s.cfg p → (f P).Inv s.cfg p) : (s.modifyPort p f).Inv where
  cfg_wf := h.cfg_wf
  ports_le := by simpa using h.ports_le
  ports_inv := by
    intro q P hq
    rw [State.port?_modifyPort] at hq
    split at hq
    · next hpq =>
      subst hpq
      obtain ⟨P0, hP0, rfl⟩ := Option.map_eq_some_iff.mp hq
      exact hf P0 hP0 (h.ports_inv _ P0 hP0)
    · exact h.ports_inv q P hq

theorem State.Inv.setRx (h : s.Inv) {r : Rx} (hr : r.Inv s.cfg p) : (s.setRx p r).Inv :=
  h.modifyPort fun _ _ hP => ⟨by intro r' hr'; cases hr'; exact hr, hP.tx_inv, hP.drain_tx⟩

theorem State.Inv.setTx (h : s.Inv) {T : Ring} (hT : T.Inv) : (s.setTx p T).Inv :=
  h.modifyPort fun _ _ hP => ⟨hP.rx_inv, by intro T' hT'; cases hT'; exact hT, fun _ => rfl⟩

theorem State.Inv.setDrain (h : s.Inv) {d0 : Drain} (hd : s.drain? p = some d0) (d : Drain) : (s.setDrain p d).Inv :=
  h.modifyPort fun P hP hI => ⟨hI.rx_inv, hI.tx_inv, fun _ => hI.drain_tx (by
    obtain ⟨P', hP', hd'⟩ := State.port?_of_drain? hd
    rw [hP] at hP'; cases hP'; rw [hd']; rfl)⟩

theorem State.Inv.setPending (h : s.Inv) (v : Bool) : (s.setPending p v).Inv :=
  h.modifyPort fun _ _ hP => ⟨hP.rx_inv, hP.tx_inv, hP.drain_tx⟩

theorem State.Inv.setEnv (h : s.Inv) (e : Env) : (s.setEnv p e).Inv :=
  h.modifyPort fun _ _ hP => ⟨hP.rx_inv, hP.tx_inv, hP.drain_tx⟩

theorem State.Inv.emit (h : s.Inv) (es : List Event) : (s.emit p es).Inv :=
  h.modifyPort fun _ _ hP => ⟨hP.rx_inv, hP.tx_inv, hP.drain_tx⟩

theorem State.Inv.boundary (h : s.Inv) (cs : List BoundaryCall) : (s.boundary p cs).Inv :=
  h.modifyPort fun _ _ hP => ⟨hP.rx_inv, hP.tx_inv, hP.drain_tx⟩

theorem State.Inv.setRet (h : s.Inv) (v : Ret) : (s.setRet who v).Inv := h.congr rfl rfl
theorem State.Inv.setTodo (h : s.Inv) (is : List Instr) : (s.setTodo who is).Inv := h.congr rfl rfl
theorem State.Inv.pushWork (h : s.Inv) (is : List Instr) : (s.pushWork who is).Inv := h.congr (by simp) (by simp)
theorem State.Inv.payloadTaken (h : s.Inv) (g : Generator) : (s.payloadTaken g).Inv := h.congr (by simp) (by simp)

theorem State.Inv.rx (h : s.Inv) {r : Rx} (hr : s.rx? p = some r) : r.Inv s.cfg p := by
  obtain ⟨P, hP, hrx⟩ := State.port?_of_rx? hr
  exact (h.ports_inv p P hP).rx_inv r hrx

theorem State.Inv.tx (h : s.Inv) {T : Ring} (hT : s.tx? p = some T) : T.Inv := by
  obtain ⟨P, hP, htx⟩ := State.port?_of_tx? hT
  exact (h.ports_inv p P hP).tx_inv T htx

/-- A decoder operation whose function keeps the invariants keeps those of the state. -/
theorem State.Inv.decoder (h : s.Inv) {f : Cfg → Rx → Except Fault RxOut}
    (hf : ∀ r o, r.Inv s.cfg p → f s.cfg r = .ok o → o.Inv s.cfg p) (ht : s.decoder p f = .next t) : t.Inv := by
  obtain ⟨r, o, hr, ho, rfl⟩ := State.decoder_next ht
  exact ((h.setRx (hf r o (h.rx hr) ho).rx).emit _).pushWork _

/-- An operation on a held ring that keeps the ring's invariants. -/
theorem State.Inv.generateHeld (h : s.Inv) {cmd : Byte} {payload : Option (List Byte)}
    (ht : s.generateHeld who p cmd payload = .next t) : t.Inv := by
  obtain ⟨T, hT, hl, hk⟩ := State.withHeldRing_next ht
  cases hk
  exact ((h.setTx ((h.tx hT).generate (by rw [hl]; simp) s.cfg cmd payload)).emit _).setRet _

theorem State.Inv.generateAndSend (h : s.Inv) {self : Instr} {cmd : Byte} {data : List Byte}
    (ht : s.generateAndSend self who cmd p data = .next t) : t.Inv := by
  rcases s.generateAndSend_cases self who cmd p data with ⟨-, he⟩ | ⟨T, hT, ⟨-, he⟩ | ⟨g, -, ⟨x, -, he⟩ | ⟨-, he⟩⟩⟩ <;>
    rw [he] at ht <;> cases ht
  · exact h.setRet _
  · exact h.setRet _
  · exact h.pushWork _
  · have hg := (((h.tx hT).claim who).generate (by simp) s.cfg cmd (s.payload (cmdIdOf cmd).toNat data g)).release
    have hcfg : (s.payloadTaken g).cfg = s.cfg := by simp
    simp only [State.generateAndRelease, hcfg]
    exact ((((h.payloadTaken g).setTx hg).emit _).setRet _).pushWork _

end Sys2Proof.Machine
end

