-- ==== Sys2Proof/Laws/PerInstr.lean ====
section
/-! SUPPORT. The family `CmdRow`: an instruction that is a `CMD` byte is the one the command-id table holds at its id,
and its word is that byte (R92, R105). -/

namespace Sys2Proof.Laws.CmdRow

/-- An instruction with `CMD` operands stands in the table at its id, and its word is its `CMD` byte. -/
def Statement (i : Instr) : Prop :=
  ∀ p ack id, i.cmdOperands = some (p, ack, id) → i = cmdInstr id p ack ∧ ∀ sync, encode sync i = some [cmdByte ack id]

/-- An instruction that is no `CMD` byte. -/
theorem of_none {i : Instr} (h : i.cmdOperands = none) : Statement i := by
  intro p ack id hi
  rw [h] at hi
  cases hi

/-- The instruction in the table at an id. -/
theorem of_some {i : Instr} {p : PortId} {ack : Bool} {id : BitVec 7} (h : i.cmdOperands = some (p, ack, id))
    (hi : i = cmdInstr id p ack) (he : ∀ sync, encode sync i = i.cmdOperands.map fun (_, a, d) => [cmdByte a d]) :
    Statement i := by
  intro q a d hq
  rw [h] at hq
  cases hq
  exact ⟨hi, fun sync => by rw [he, h]; rfl⟩

theorem sync (p : PortId) : Statement (.sync p) := of_none rfl
theorem frameHeaderOnly (p : PortId) (ack : Bool) (id : BitVec 7) (crc8 : Byte) :
    Statement (.frameHeaderOnly p ack id crc8) := of_none rfl
theorem frameWithData (p : PortId) (ack : Bool) (id : BitVec 7) (crc8 : Byte) (data : List Byte) (crc16 : Word16) :
    Statement (.frameWithData p ack id crc8 data crc16) := of_none rfl
theorem cmdNone (p : PortId) (ack : Bool) : Statement (.cmdNone p ack) := of_some rfl rfl fun _ => rfl
theorem cmdAck (p : PortId) (ack : Bool) : Statement (.cmdAck p ack) := of_some rfl rfl fun _ => rfl
theorem cmdPing (p : PortId) (ack : Bool) : Statement (.cmdPing p ack) := of_some rfl rfl fun _ => rfl
theorem cmdDebugMessage (p : PortId) (ack : Bool) :
    Statement (.cmdDebugMessage p ack) := of_some rfl rfl fun _ => rfl
theorem cmdGetRunningMode (p : PortId) (ack : Bool) :
    Statement (.cmdGetRunningMode p ack) := of_some rfl rfl fun _ => rfl
theorem cmdUnlisted5 (p : PortId) (ack : Bool) : Statement (.cmdUnlisted5 p ack) := of_some rfl rfl fun _ => rfl
theorem cmdUnlisted6 (p : PortId) (ack : Bool) : Statement (.cmdUnlisted6 p ack) := of_some rfl rfl fun _ => rfl
theorem cmdUnlisted7 (p : PortId) (ack : Bool) : Statement (.cmdUnlisted7 p ack) := of_some rfl rfl fun _ => rfl
theorem cmdUnlisted8 (p : PortId) (ack : Bool) : Statement (.cmdUnlisted8 p ack) := of_some rfl rfl fun _ => rfl
theorem cmdUnlisted9 (p : PortId) (ack : Bool) : Statement (.cmdUnlisted9 p ack) := of_some rfl rfl fun _ => rfl
theorem cmdFwUpdate10 (p : PortId) (ack : Bool) : Statement (.cmdFwUpdate10 p ack) := of_some rfl rfl fun _ => rfl
theorem cmdFwUpdate11 (p : PortId) (ack : Bool) : Statement (.cmdFwUpdate11 p ack) := of_some rfl rfl fun _ => rfl
theorem cmdFwUpdate12 (p : PortId) (ack : Bool) : Statement (.cmdFwUpdate12 p ack) := of_some rfl rfl fun _ => rfl
theorem cmdFwUpdate13 (p : PortId) (ack : Bool) : Statement (.cmdFwUpdate13 p ack) := of_some rfl rfl fun _ => rfl
theorem cmdFwUpdate14 (p : PortId) (ack : Bool) : Statement (.cmdFwUpdate14 p ack) := of_some rfl rfl fun _ => rfl
theorem cmdFwUpdate15 (p : PortId) (ack : Bool) : Statement (.cmdFwUpdate15 p ack) := of_some rfl rfl fun _ => rfl
theorem cmdFwUpdate16 (p : PortId) (ack : Bool) : Statement (.cmdFwUpdate16 p ack) := of_some rfl rfl fun _ => rfl
theorem cmdGetDeviceInfo (p : PortId) (ack : Bool) :
    Statement (.cmdGetDeviceInfo p ack) := of_some rfl rfl fun _ => rfl
theorem cmdUnlisted18 (p : PortId) (ack : Bool) : Statement (.cmdUnlisted18 p ack) := of_some rfl rfl fun _ => rfl
theorem cmdUnlisted19 (p : PortId) (ack : Bool) : Statement (.cmdUnlisted19 p ack) := of_some rfl rfl fun _ => rfl
theorem cmdUnlisted20 (p : PortId) (ack : Bool) : Statement (.cmdUnlisted20 p ack) := of_some rfl rfl fun _ => rfl
theorem cmdUnlisted21 (p : PortId) (ack : Bool) : Statement (.cmdUnlisted21 p ack) := of_some rfl rfl fun _ => rfl
theorem cmdUnlisted22 (p : PortId) (ack : Bool) : Statement (.cmdUnlisted22 p ack) := of_some rfl rfl fun _ => rfl
theorem cmdUnlisted23 (p : PortId) (ack : Bool) : Statement (.cmdUnlisted23 p ack) := of_some rfl rfl fun _ => rfl
theorem cmdUnlisted24 (p : PortId) (ack : Bool) : Statement (.cmdUnlisted24 p ack) := of_some rfl rfl fun _ => rfl
theorem cmdUnlisted25 (p : PortId) (ack : Bool) : Statement (.cmdUnlisted25 p ack) := of_some rfl rfl fun _ => rfl
theorem cmdUnlisted26 (p : PortId) (ack : Bool) : Statement (.cmdUnlisted26 p ack) := of_some rfl rfl fun _ => rfl
theorem cmdUnlisted27 (p : PortId) (ack : Bool) : Statement (.cmdUnlisted27 p ack) := of_some rfl rfl fun _ => rfl
theorem cmdUnlisted28 (p : PortId) (ack : Bool) : Statement (.cmdUnlisted28 p ack) := of_some rfl rfl fun _ => rfl
theorem cmdUnlisted29 (p : PortId) (ack : Bool) : Statement (.cmdUnlisted29 p ack) := of_some rfl rfl fun _ => rfl
theorem cmdUnlisted30 (p : PortId) (ack : Bool) : Statement (.cmdUnlisted30 p ack) := of_some rfl rfl fun _ => rfl
theorem cmdUnlisted31 (p : PortId) (ack : Bool) : Statement (.cmdUnlisted31 p ack) := of_some rfl rfl fun _ => rfl
theorem cmdUnlisted32 (p : PortId) (ack : Bool) : Statement (.cmdUnlisted32 p ack) := of_some rfl rfl fun _ => rfl
theorem cmdUnlisted33 (p : PortId) (ack : Bool) : Statement (.cmdUnlisted33 p ack) := of_some rfl rfl fun _ => rfl
theorem cmdUnlisted34 (p : PortId) (ack : Bool) : Statement (.cmdUnlisted34 p ack) := of_some rfl rfl fun _ => rfl
theorem cmdUnlisted35 (p : PortId) (ack : Bool) : Statement (.cmdUnlisted35 p ack) := of_some rfl rfl fun _ => rfl
theorem cmdUnlisted36 (p : PortId) (ack : Bool) : Statement (.cmdUnlisted36 p ack) := of_some rfl rfl fun _ => rfl
theorem cmdUnlisted37 (p : PortId) (ack : Bool) : Statement (.cmdUnlisted37 p ack) := of_some rfl rfl fun _ => rfl
theorem cmdUnlisted38 (p : PortId) (ack : Bool) : Statement (.cmdUnlisted38 p ack) := of_some rfl rfl fun _ => rfl
theorem cmdUnlisted39 (p : PortId) (ack : Bool) : Statement (.cmdUnlisted39 p ack) := of_some rfl rfl fun _ => rfl
theorem cmdUnlisted40 (p : PortId) (ack : Bool) : Statement (.cmdUnlisted40 p ack) := of_some rfl rfl fun _ => rfl
theorem cmdUnlisted41 (p : PortId) (ack : Bool) : Statement (.cmdUnlisted41 p ack) := of_some rfl rfl fun _ => rfl
theorem cmdUnlisted42 (p : PortId) (ack : Bool) : Statement (.cmdUnlisted42 p ack) := of_some rfl rfl fun _ => rfl
theorem cmdUnlisted43 (p : PortId) (ack : Bool) : Statement (.cmdUnlisted43 p ack) := of_some rfl rfl fun _ => rfl
theorem cmdUnlisted44 (p : PortId) (ack : Bool) : Statement (.cmdUnlisted44 p ack) := of_some rfl rfl fun _ => rfl
theorem cmdUnlisted45 (p : PortId) (ack : Bool) : Statement (.cmdUnlisted45 p ack) := of_some rfl rfl fun _ => rfl
theorem cmdUnlisted46 (p : PortId) (ack : Bool) : Statement (.cmdUnlisted46 p ack) := of_some rfl rfl fun _ => rfl
theorem cmdUnlisted47 (p : PortId) (ack : Bool) : Statement (.cmdUnlisted47 p ack) := of_some rfl rfl fun _ => rfl
theorem cmdUnlisted48 (p : PortId) (ack : Bool) : Statement (.cmdUnlisted48 p ack) := of_some rfl rfl fun _ => rfl
theorem cmdUnlisted49 (p : PortId) (ack : Bool) : Statement (.cmdUnlisted49 p ack) := of_some rfl rfl fun _ => rfl
theorem cmdUnlisted50 (p : PortId) (ack : Bool) : Statement (.cmdUnlisted50 p ack) := of_some rfl rfl fun _ => rfl
theorem cmdUnlisted51 (p : PortId) (ack : Bool) : Statement (.cmdUnlisted51 p ack) := of_some rfl rfl fun _ => rfl
theorem cmdUnlisted52 (p : PortId) (ack : Bool) : Statement (.cmdUnlisted52 p ack) := of_some rfl rfl fun _ => rfl
theorem cmdUnlisted53 (p : PortId) (ack : Bool) : Statement (.cmdUnlisted53 p ack) := of_some rfl rfl fun _ => rfl
theorem cmdUnlisted54 (p : PortId) (ack : Bool) : Statement (.cmdUnlisted54 p ack) := of_some rfl rfl fun _ => rfl
theorem cmdUnlisted55 (p : PortId) (ack : Bool) : Statement (.cmdUnlisted55 p ack) := of_some rfl rfl fun _ => rfl
theorem cmdUnlisted56 (p : PortId) (ack : Bool) : Statement (.cmdUnlisted56 p ack) := of_some rfl rfl fun _ => rfl
theorem cmdUnlisted57 (p : PortId) (ack : Bool) : Statement (.cmdUnlisted57 p ack) := of_some rfl rfl fun _ => rfl
theorem cmdUnlisted58 (p : PortId) (ack : Bool) : Statement (.cmdUnlisted58 p ack) := of_some rfl rfl fun _ => rfl
theorem cmdUnlisted59 (p : PortId) (ack : Bool) : Statement (.cmdUnlisted59 p ack) := of_some rfl rfl fun _ => rfl
theorem cmdUnlisted60 (p : PortId) (ack : Bool) : Statement (.cmdUnlisted60 p ack) := of_some rfl rfl fun _ => rfl
theorem cmdUnlisted61 (p : PortId) (ack : Bool) : Statement (.cmdUnlisted61 p ack) := of_some rfl rfl fun _ => rfl
theorem cmdUnlisted62 (p : PortId) (ack : Bool) : Statement (.cmdUnlisted62 p ack) := of_some rfl rfl fun _ => rfl
theorem cmdUnlisted63 (p : PortId) (ack : Bool) : Statement (.cmdUnlisted63 p ack) := of_some rfl rfl fun _ => rfl
theorem cmdUnlisted64 (p : PortId) (ack : Bool) : Statement (.cmdUnlisted64 p ack) := of_some rfl rfl fun _ => rfl
theorem cmdUnlisted65 (p : PortId) (ack : Bool) : Statement (.cmdUnlisted65 p ack) := of_some rfl rfl fun _ => rfl
theorem cmdUnlisted66 (p : PortId) (ack : Bool) : Statement (.cmdUnlisted66 p ack) := of_some rfl rfl fun _ => rfl
theorem cmdUnlisted67 (p : PortId) (ack : Bool) : Statement (.cmdUnlisted67 p ack) := of_some rfl rfl fun _ => rfl
theorem cmdUnlisted68 (p : PortId) (ack : Bool) : Statement (.cmdUnlisted68 p ack) := of_some rfl rfl fun _ => rfl
theorem cmdUnlisted69 (p : PortId) (ack : Bool) : Statement (.cmdUnlisted69 p ack) := of_some rfl rfl fun _ => rfl
theorem cmdUnlisted70 (p : PortId) (ack : Bool) : Statement (.cmdUnlisted70 p ack) := of_some rfl rfl fun _ => rfl
theorem cmdUnlisted71 (p : PortId) (ack : Bool) : Statement (.cmdUnlisted71 p ack) := of_some rfl rfl fun _ => rfl
theorem cmdUnlisted72 (p : PortId) (ack : Bool) : Statement (.cmdUnlisted72 p ack) := of_some rfl rfl fun _ => rfl
theorem cmdUnlisted73 (p : PortId) (ack : Bool) : Statement (.cmdUnlisted73 p ack) := of_some rfl rfl fun _ => rfl
theorem cmdUnlisted74 (p : PortId) (ack : Bool) : Statement (.cmdUnlisted74 p ack) := of_some rfl rfl fun _ => rfl
theorem cmdUnlisted75 (p : PortId) (ack : Bool) : Statement (.cmdUnlisted75 p ack) := of_some rfl rfl fun _ => rfl
theorem cmdUnlisted76 (p : PortId) (ack : Bool) : Statement (.cmdUnlisted76 p ack) := of_some rfl rfl fun _ => rfl
theorem cmdUnlisted77 (p : PortId) (ack : Bool) : Statement (.cmdUnlisted77 p ack) := of_some rfl rfl fun _ => rfl
theorem cmdUnlisted78 (p : PortId) (ack : Bool) : Statement (.cmdUnlisted78 p ack) := of_some rfl rfl fun _ => rfl
theorem cmdUnlisted79 (p : PortId) (ack : Bool) : Statement (.cmdUnlisted79 p ack) := of_some rfl rfl fun _ => rfl
theorem cmdUnlisted80 (p : PortId) (ack : Bool) : Statement (.cmdUnlisted80 p ack) := of_some rfl rfl fun _ => rfl
theorem cmdUnlisted81 (p : PortId) (ack : Bool) : Statement (.cmdUnlisted81 p ack) := of_some rfl rfl fun _ => rfl
theorem cmdUnlisted82 (p : PortId) (ack : Bool) : Statement (.cmdUnlisted82 p ack) := of_some rfl rfl fun _ => rfl
theorem cmdUnlisted83 (p : PortId) (ack : Bool) : Statement (.cmdUnlisted83 p ack) := of_some rfl rfl fun _ => rfl
theorem cmdUnlisted84 (p : PortId) (ack : Bool) : Statement (.cmdUnlisted84 p ack) := of_some rfl rfl fun _ => rfl
theorem cmdUnlisted85 (p : PortId) (ack : Bool) : Statement (.cmdUnlisted85 p ack) := of_some rfl rfl fun _ => rfl
theorem cmdUnlisted86 (p : PortId) (ack : Bool) : Statement (.cmdUnlisted86 p ack) := of_some rfl rfl fun _ => rfl
theorem cmdUnlisted87 (p : PortId) (ack : Bool) : Statement (.cmdUnlisted87 p ack) := of_some rfl rfl fun _ => rfl
theorem cmdUnlisted88 (p : PortId) (ack : Bool) : Statement (.cmdUnlisted88 p ack) := of_some rfl rfl fun _ => rfl
theorem cmdUnlisted89 (p : PortId) (ack : Bool) : Statement (.cmdUnlisted89 p ack) := of_some rfl rfl fun _ => rfl
theorem cmdUnlisted90 (p : PortId) (ack : Bool) : Statement (.cmdUnlisted90 p ack) := of_some rfl rfl fun _ => rfl
theorem cmdUnlisted91 (p : PortId) (ack : Bool) : Statement (.cmdUnlisted91 p ack) := of_some rfl rfl fun _ => rfl
theorem cmdUnlisted92 (p : PortId) (ack : Bool) : Statement (.cmdUnlisted92 p ack) := of_some rfl rfl fun _ => rfl
theorem cmdUnlisted93 (p : PortId) (ack : Bool) : Statement (.cmdUnlisted93 p ack) := of_some rfl rfl fun _ => rfl
theorem cmdUnlisted94 (p : PortId) (ack : Bool) : Statement (.cmdUnlisted94 p ack) := of_some rfl rfl fun _ => rfl
theorem cmdUnlisted95 (p : PortId) (ack : Bool) : Statement (.cmdUnlisted95 p ack) := of_some rfl rfl fun _ => rfl
theorem cmdUnlisted96 (p : PortId) (ack : Bool) : Statement (.cmdUnlisted96 p ack) := of_some rfl rfl fun _ => rfl
theorem cmdUnlisted97 (p : PortId) (ack : Bool) : Statement (.cmdUnlisted97 p ack) := of_some rfl rfl fun _ => rfl
theorem cmdUnlisted98 (p : PortId) (ack : Bool) : Statement (.cmdUnlisted98 p ack) := of_some rfl rfl fun _ => rfl
theorem cmdUnlisted99 (p : PortId) (ack : Bool) : Statement (.cmdUnlisted99 p ack) := of_some rfl rfl fun _ => rfl
theorem cmdUnlisted100 (p : PortId) (ack : Bool) : Statement (.cmdUnlisted100 p ack) := of_some rfl rfl fun _ => rfl
theorem cmdUnlisted101 (p : PortId) (ack : Bool) : Statement (.cmdUnlisted101 p ack) := of_some rfl rfl fun _ => rfl
theorem cmdUnlisted102 (p : PortId) (ack : Bool) : Statement (.cmdUnlisted102 p ack) := of_some rfl rfl fun _ => rfl
theorem cmdUnlisted103 (p : PortId) (ack : Bool) : Statement (.cmdUnlisted103 p ack) := of_some rfl rfl fun _ => rfl
theorem cmdUnlisted104 (p : PortId) (ack : Bool) : Statement (.cmdUnlisted104 p ack) := of_some rfl rfl fun _ => rfl
theorem cmdUnlisted105 (p : PortId) (ack : Bool) : Statement (.cmdUnlisted105 p ack) := of_some rfl rfl fun _ => rfl
theorem cmdUnlisted106 (p : PortId) (ack : Bool) : Statement (.cmdUnlisted106 p ack) := of_some rfl rfl fun _ => rfl
theorem cmdUnlisted107 (p : PortId) (ack : Bool) : Statement (.cmdUnlisted107 p ack) := of_some rfl rfl fun _ => rfl
theorem cmdUnlisted108 (p : PortId) (ack : Bool) : Statement (.cmdUnlisted108 p ack) := of_some rfl rfl fun _ => rfl
theorem cmdUnlisted109 (p : PortId) (ack : Bool) : Statement (.cmdUnlisted109 p ack) := of_some rfl rfl fun _ => rfl
theorem cmdUnlisted110 (p : PortId) (ack : Bool) : Statement (.cmdUnlisted110 p ack) := of_some rfl rfl fun _ => rfl
theorem cmdUnlisted111 (p : PortId) (ack : Bool) : Statement (.cmdUnlisted111 p ack) := of_some rfl rfl fun _ => rfl
theorem cmdUnlisted112 (p : PortId) (ack : Bool) : Statement (.cmdUnlisted112 p ack) := of_some rfl rfl fun _ => rfl
theorem cmdUnlisted113 (p : PortId) (ack : Bool) : Statement (.cmdUnlisted113 p ack) := of_some rfl rfl fun _ => rfl
theorem cmdUnlisted114 (p : PortId) (ack : Bool) : Statement (.cmdUnlisted114 p ack) := of_some rfl rfl fun _ => rfl
theorem cmdUnlisted115 (p : PortId) (ack : Bool) : Statement (.cmdUnlisted115 p ack) := of_some rfl rfl fun _ => rfl
theorem cmdUnlisted116 (p : PortId) (ack : Bool) : Statement (.cmdUnlisted116 p ack) := of_some rfl rfl fun _ => rfl
theorem cmdUnlisted117 (p : PortId) (ack : Bool) : Statement (.cmdUnlisted117 p ack) := of_some rfl rfl fun _ => rfl
theorem cmdUnlisted118 (p : PortId) (ack : Bool) : Statement (.cmdUnlisted118 p ack) := of_some rfl rfl fun _ => rfl
theorem cmdUnlisted119 (p : PortId) (ack : Bool) : Statement (.cmdUnlisted119 p ack) := of_some rfl rfl fun _ => rfl
theorem cmdUnlisted120 (p : PortId) (ack : Bool) : Statement (.cmdUnlisted120 p ack) := of_some rfl rfl fun _ => rfl
theorem cmdUnlisted121 (p : PortId) (ack : Bool) : Statement (.cmdUnlisted121 p ack) := of_some rfl rfl fun _ => rfl
theorem cmdUnlisted122 (p : PortId) (ack : Bool) : Statement (.cmdUnlisted122 p ack) := of_some rfl rfl fun _ => rfl
theorem cmdUnlisted123 (p : PortId) (ack : Bool) : Statement (.cmdUnlisted123 p ack) := of_some rfl rfl fun _ => rfl
theorem cmdUnlisted124 (p : PortId) (ack : Bool) : Statement (.cmdUnlisted124 p ack) := of_some rfl rfl fun _ => rfl
theorem cmdUnlisted125 (p : PortId) (ack : Bool) : Statement (.cmdUnlisted125 p ack) := of_some rfl rfl fun _ => rfl
theorem cmdUnlisted126 (p : PortId) (ack : Bool) : Statement (.cmdUnlisted126 p ack) := of_some rfl rfl fun _ => rfl
theorem cmdUnlisted127 (p : PortId) (ack : Bool) : Statement (.cmdUnlisted127 p ack) := of_some rfl rfl fun _ => rfl
theorem crc8Step (who : Agent) (form : Crc8Form) : Statement (.crc8Step who form) := of_none rfl
theorem crc16Step (who : Agent) (form : Crc16Form) : Statement (.crc16Step who form) := of_none rfl
theorem cbClaim (who : Agent) (p : PortId) : Statement (.cbClaim who p) := of_none rfl
theorem cbRelease (who : Agent) (p : PortId) : Statement (.cbRelease who p) := of_none rfl
theorem cbFree (who : Agent) (p : PortId) : Statement (.cbFree who p) := of_none rfl
theorem cbWriteRaw (who : Agent) (p : PortId) (src : ByteSrc) : Statement (.cbWriteRaw who p src) := of_none rfl
theorem cbWriteEsc (who : Agent) (p : PortId) (src : ByteSrc) : Statement (.cbWriteEsc who p src) := of_none rfl
theorem cbCommit (who : Agent) (p : PortId) : Statement (.cbCommit who p) := of_none rfl
theorem cbDiscard (who : Agent) (p : PortId) : Statement (.cbDiscard who p) := of_none rfl
theorem cbIsEmpty (who : Agent) (p : PortId) : Statement (.cbIsEmpty who p) := of_none rfl
theorem cbReadableRun (who : Agent) (p : PortId) : Statement (.cbReadableRun who p) := of_none rfl
theorem cbReadRun (who : Agent) (p : PortId) (start len : Nat) :
    Statement (.cbReadRun who p start len) := of_none rfl
theorem cbAdvance (who : Agent) (p : PortId) (n : Nat) : Statement (.cbAdvance who p n) := of_none rfl
theorem genHeaderOnly (who : Agent) (p : PortId) (cmd : Byte) : Statement (.genHeaderOnly who p cmd) := of_none rfl
theorem genGeneric (who : Agent) (p : PortId) (cmd : Byte) (data : List Byte) :
    Statement (.genGeneric who p cmd data) := of_none rfl
theorem rxStep (p : PortId) (b : Byte) : Statement (.rxStep p b) := of_none rfl
theorem rxWaitSync (p : PortId) (b : Byte) : Statement (.rxWaitSync p b) := of_none rfl
theorem rxReseed (p : PortId) : Statement (.rxReseed p) := of_none rfl
theorem rxRxCmd (p : PortId) (b : Byte) : Statement (.rxRxCmd p b) := of_none rfl
theorem rxRxSize (p : PortId) (b : Byte) : Statement (.rxRxSize p b) := of_none rfl
theorem rxRxCrc8 (p : PortId) (b : Byte) : Statement (.rxRxCrc8 p b) := of_none rfl
theorem rxFail (p : PortId) (cause : RxErrorCause) : Statement (.rxFail p cause) := of_none rfl
theorem rxComplete (p : PortId) : Statement (.rxComplete p) := of_none rfl
theorem rxRxData (p : PortId) (b : Byte) : Statement (.rxRxData p b) := of_none rfl
theorem rxRxCrc16Hi (p : PortId) (b : Byte) : Statement (.rxRxCrc16Hi p b) := of_none rfl
theorem rxRxCrc16Lo (p : PortId) (b : Byte) : Statement (.rxRxCrc16Lo p b) := of_none rfl
theorem rxEscapeConfirmed (p : PortId) : Statement (.rxEscapeConfirmed p) := of_none rfl
theorem rxAbandonRestart (p : PortId) (b : Byte) : Statement (.rxAbandonRestart p b) := of_none rfl
theorem rxSendAck (p : PortId) : Statement (.rxSendAck p) := of_none rfl
theorem lookupDec (who : Agent) (id : Nat) : Statement (.lookupDec who id) := of_none rfl
theorem lookupGen (who : Agent) (id : Nat) : Statement (.lookupGen who id) := of_none rfl
theorem generateAndSend (who : Agent) (cmd : Byte) (p : PortId) (data : List Byte) :
    Statement (.generateAndSend who cmd p data) := of_none rfl
theorem signal (p : PortId) : Statement (.signal p) := of_none rfl
theorem drainWake (p : PortId) : Statement (.drainWake p) := of_none rfl
theorem drainIteration (p : PortId) : Statement (.drainIteration p) := of_none rfl
theorem drainAbort (p : PortId) (cause : DrainCause) : Statement (.drainAbort p cause) := of_none rfl
theorem decodeTaskIteration (p : PortId) : Statement (.decodeTaskIteration p) := of_none rfl
theorem rxByteSyncMidframe (p : PortId) : Statement (.rxByteSyncMidframe p) := of_none rfl

end Sys2Proof.Laws.CmdRow
end

