-- ==== Sys2Proof/Laws/Step.lean ====
section
/-! SUPPORT. What a step can do, said once: nothing but take the turn off the schedule, let a handler return, or
execute one instruction of the agent's own in a state that differs from it by a work item or an input taken. -/

namespace Sys2Proof.Machine

/-- The state a turn starts from: the schedule has moved on. -/
def State.turned (s : State) (rest : List Agent) : State := { s with sched := rest }

section views
variable (s : State) (rest : List Agent)

@[simp] theorem State.turned_cfg : (s.turned rest).cfg = s.cfg := rfl
@[simp] theorem State.turned_ports : (s.turned rest).ports = s.ports := rfl
@[simp] theorem State.turned_sched : (s.turned rest).sched = rest := rfl
@[simp] theorem State.turned_port? (p : PortId) : (s.turned rest).port? p = s.port? p := rfl
@[simp] theorem State.turned_rx? (p : PortId) : (s.turned rest).rx? p = s.rx? p := rfl
@[simp] theorem State.turned_tx? (p : PortId) : (s.turned rest).tx? p = s.tx? p := rfl
@[simp] theorem State.turned_drain? (p : PortId) : (s.turned rest).drain? p = s.drain? p := rfl
@[simp] theorem State.turned_env (p : PortId) : (s.turned rest).env p = s.env p := rfl
@[simp] theorem State.turned_ctx (a : Agent) : (s.turned rest).ctx a = s.ctx a := rfl

end views

/-- What an agent's turn fetches: nothing, a handler's return, its first operation, which is another agent's or its own,
a byte read in the decoder's state, a round of the decode task without a byte, or a turn of the drain task (R13, R226,
R285, R253, R248, R249). -/
inductive FetchCases (a : Agent) (s : State) : Fetched → Prop
  | idle : FetchCases a s .idle
  | returned (p : PortId) (r : Rx) (replies : List Reply) (rest : List (List Reply)) (ha : a = .decode p)
      (hr : s.rx? p = some r) (hs : (s.env p).handlerReturns = replies :: rest) :
      FetchCases a s (.moved (((s.setEnv p { s.env p with handlerReturns := rest }).setRx p
        { r with inHandler := none }).pushWork (.decode p) (replies.map (replyInstr p))))
  | work (i : Instr) (is : List Instr) (hw : (s.ctx a).todo = i :: is)
      (hd : ∀ p, a = .decode p → ∃ r, s.rx? p = some r ∧ r.inHandler = none)
      (hq : ∀ p, a = .drain p → (s.drain? p).isSome = true) (hm : mayExecute a i = true) :
      FetchCases a s (.run i (s.setTodo a is))
  | misuse (i : Instr) (is : List Instr) (hw : (s.ctx a).todo = i :: is) (hm : mayExecute a i = false) :
      FetchCases a s .misuse
  | byte (p : PortId) (r : Rx) (b : Byte) (i : Instr) (rest : List RxAnswer) (ha : a = .decode p)
      (hr : s.rx? p = some r) (hs : (s.env p).input = .byte b :: rest) (hi : decode (s.decodeCtx p r) [b] = .instr i) :
      FetchCases a s (.run i (s.takeInput p rest))
  | round (p : PortId) (r : Rx) (ha : a = .decode p) (hr : s.rx? p = some r)
      (hs : ∀ b rest, (s.env p).input ≠ .byte b :: rest) : FetchCases a s (.run (.decodeTaskIteration p) s)
  | wake (p : PortId) (d : Drain) (ha : a = .drain p) (hd : s.drain? p = some d) (hs : d.state = .blocked) :
      FetchCases a s (.run (.drainWake p) s)
  | line (p : PortId) (d : Drain) (ha : a = .drain p) (hd : s.drain? p = some d) (hs : d.state = .draining) :
      FetchCases a s (.run (.drainIteration p) s)

theorem fetchWork_cases {a : Agent} {s : State} {x : Fetched}
    (hd : ∀ p, a = .decode p → ∃ r, s.rx? p = some r ∧ r.inHandler = none)
    (hq : ∀ p, a = .drain p → (s.drain? p).isSome = true)
    (h : (s.ctx a).todo = [] → FetchCases a s x) : FetchCases a s (fetchWork a x s) := by
  unfold fetchWork
  split
  · next i is hw =>
    split
    · next hm => exact .work i is hw hd hq hm
    · next hm => exact .misuse i is hw (Bool.not_eq_true _ ▸ hm)
  · next hw => exact h hw

theorem fetch_cases (a : Agent) (s : State) : FetchCases a s (fetch a s) := by
  cases a with
  | writer w => exact fetchWork_cases (nofun) (nofun) fun _ => .idle
  | host => exact fetchWork_cases (nofun) (nofun) fun _ => .idle
  | drain p =>
    simp only [fetch, fetchDrain]
    split
    · exact .idle
    · next d hd =>
      refine fetchWork_cases (nofun) (fun q hq => by cases hq; rw [hd]; rfl) fun _ => ?_
      unfold fetchDrainLoop
      split
      · next hs => exact .wake p d rfl hd hs
      · next hs => exact .line p d rfl hd hs
  | decode p =>
    simp only [fetch, fetchDecode]
    split
    · exact .idle
    · next r hr =>
      split
      · unfold fetchHandlerReturn
        split
        · exact .idle
        · next replies rest hs => exact .returned p r replies rest rfl hr hs
      · next hn =>
        refine fetchWork_cases (fun q hq => by cases hq; exact ⟨r, hr, hn⟩) (nofun) fun _ => ?_
        unfold fetchByte
        split
        · next b rest hs =>
          split
          · next i hi => exact .byte p r b i rest rfl hr hs hi
          · exact .idle
        · next hs => exact .round p r rfl hr hs

/-- The operations of a port's receiver are DecodeTask(p)'s (R71). -/
theorem mayExecute_rx {a : Agent} {i : Instr} {p : PortId} (h : i.rxPort? = some p) :
    mayExecute a i = decide (a = .decode p) := by
  cases i <;> simp only [Instr.rxPort?, Instr.cmdOperands, Option.map_some, Option.map_none, Option.some.injEq,
    reduceCtorEq] at h <;> subst h <;> rfl

/-- The `CMD` instruction of an id is a byte of the port's receiver. -/
theorem cmdInstr_rxPort? (id : BitVec 7) (p : PortId) (ack : Bool) : (cmdInstr id p ack).rxPort? = some p := by
  have h : ∀ n < 128, (cmdInstr (BitVec.ofNat 7 n) p ack).rxPort? = some p := by
    intro n hn
    interval_cases n <;> rfl
  simpa using h id.toNat (by omega)

/-- A byte is an instruction of the port it arrives on (R198). -/
theorem decode_byte_rxPort? {c : DecodeCtx} {b : Byte} {i : Instr} (h : decode c [b] = .instr i) :
    i.rxPort? = some c.port := by
  simp only [decode, Decoded.instr.injEq] at h
  subst h
  obtain ⟨sync, st, p⟩ := c
  cases st with
  | waitSync => simp only [decodeByte]; split <;> rfl
  | rxCmd => exact cmdInstr_rxPort? _ _ _
  | mid m => simp only [decodeByte]; cases m <;> split <;> rfl
  | waitSyncOrEscapedByte => simp only [decodeByte]; split <;> rfl

/-- Whatever a turn executes is the agent's own to execute (R285). -/
theorem FetchCases.mayExecute {a : Agent} {s t : State} {i : Instr} (h : FetchCases a s (.run i t)) :
    mayExecute a i = true := by
  cases h with
  | work _ _ _ _ _ hm => exact hm
  | byte p r b _ _ ha hr hs hi => rw [mayExecute_rx (decode_byte_rxPort? hi), ha]; simp [State.decodeCtx]
  | round p r ha => subst ha; simp [Machine.mayExecute]
  | wake p d ha => subst ha; simp [Machine.mayExecute]
  | line p d ha => subst ha; simp [Machine.mayExecute]

/-- Everything a step can do. -/
theorem step_cases (s : State) :
    (s.sched = [] ∧ step s = .next s) ∨
    ∃ (a : Agent) (rest : List Agent), s.sched = a :: rest ∧ ∃ x, FetchCases a (s.turned rest) x ∧
      step s = match x with
        | .idle => .next (s.turned rest)
        | .moved t => .next t
        | .run i t => exec i t
        | .misuse => .refused .notOwner := by
  unfold step
  split
  · next h => exact .inl ⟨h, rfl⟩
  · next a rest h => exact .inr ⟨a, rest, h, _, fetch_cases a _, rfl⟩

end Sys2Proof.Machine
end

