-- ==== Sys2Proof/Tests/Slice0.lean ====
section
/-! SUPPORT. Tests on fixed values, and for every statement with hypotheses a state that meets them. Expected values are
the words and vectors of `spec/30_encoding.md` and `spec/95_test_vectors.md`, named in the comments; the CRC-8 is the
spec's reference function (R126). -/

namespace Sys2Proof.Tests
open Sys2Proof.Machine

/-! ### Small states -/

/-- The configuration of the spec's numeric vectors: the default with the reference CRC-8. -/
def cfg : Cfg := { Config.cfg with crc8 := .reference }

/-- Receiver registers in a decoder state. -/
def rx (st : RxState) : Rx := { Rx.reset 0 with state := st }

/-- A ring of 16 slots with these cursors. -/
def ring (head tail : Nat) : Machine.Ring := { Ring.reset 16 with head := head, tail := tail }

/-- A ring that agent `writer 0` holds, with a provisional count. -/
def heldRing (head tail : Nat) (v : Prov) : Machine.Ring :=
  { ring head tail with lock := .held (.writer 0), call := some { GenCall.start with prov := v } }

/-- Port 0 with these parts. -/
def port (r : Rx) (T : Machine.Ring) (d : Drain) : Port :=
  { Port.reset 0 Config.portCfg with rx := some r, tx := some T, drain := some d }

/-- A state with one port. -/
def one (P : Port) : State := { State.reset with cfg := cfg, ports := [P] }

/-- A state in which the receiver of port 0 has these registers. -/
def rxSt (r : Rx) : State := one (port r (ring 0 0) Drain.reset)

/-- A state in which the ring of port 0 is this one. -/
def txSt (T : Machine.Ring) : State := one (port (rx .waitSync) T Drain.reset)

/-- A check of the next state. -/
def after (o : Result) (f : State → Bool) : Bool :=
  match o with
  | .next t => f t
  | _ => false

/-- A check of the receiver registers of port 0 in the next state. -/
def afterRx (o : Result) (f : Rx → Bool) : Bool := after o fun t => (t.rx? 0).elim false f

/-- A check of the ring of port 0 in the next state. -/
def afterTx (o : Result) (f : Machine.Ring → Bool) : Bool := after o fun t => (t.tx? 0).elim false f

/-- The bytes at the first indices of a memory, where written. -/
def firstBytes (m : Mem) (n : Nat) : List (Option Byte) := (List.range n).map m.read

/-! ### Well-formedness refuses ill-formed terms -/

theorem test_wf_port : Instr.wf (.sync 5) = false ∧ Instr.wf (.sync 4) = true := by decide
theorem test_wf_cmd_port : Instr.wf (.cmdPing 5 true) = false ∧ Instr.wf (.cmdPing 0 true) = true := by decide
theorem test_wf_empty_frame : Instr.wf (.frameWithData 0 false 2 0x1F [] 0) = false := by decide
theorem test_wf_long_frame : Instr.wf (.frameWithData 0 false 11 0x51 (List.replicate 256 0) 0) = false :=
  by decide +kernel
theorem test_wf_longest_frame : Instr.wf (.frameWithData 0 false 11 0x51 (List.replicate 255 0) 0) = true :=
  by decide +kernel
theorem test_wf_table_id : Instr.wf (.lookupDec .host 128) = false ∧ Instr.wf (.lookupDec .host 127) = true := by decide
theorem test_wf_agent : Instr.wf (.cbClaim (.decode 5) 0) = false ∧ Instr.wf (.cbClaim (.decode 4) 0) = true := by decide
theorem test_wf_gen_port : Instr.wf (.crc8Step (.writer 0) (.gen 5 .genCrc8)) = false := by decide

/-! ### Decoding words written out from the encoding (R91, R105 to R107) -/

/-- The `CMD` bytes of ids 0 to 15, bit 7 clear. -/
def cmdWords0 : List (Byte × Instr) :=
  [(0b00000000, .cmdNone 0 false), (0b00000001, .cmdAck 0 false), (0b00000010, .cmdPing 0 false),
   (0b00000011, .cmdDebugMessage 0 false), (0b00000100, .cmdGetRunningMode 0 false),
   (0b00000101, .cmdUnlisted5 0 false), (0b00000110, .cmdUnlisted6 0 false), (0b00000111, .cmdUnlisted7 0 false),
   (0b00001000, .cmdUnlisted8 0 false), (0b00001001, .cmdUnlisted9 0 false), (0b00001010, .cmdFwUpdate10 0 false),
   (0b00001011, .cmdFwUpdate11 0 false), (0b00001100, .cmdFwUpdate12 0 false),
   (0b00001101, .cmdFwUpdate13 0 false), (0b00001110, .cmdFwUpdate14 0 false), (0b00001111, .cmdFwUpdate15 0 false)]

/-- The `CMD` bytes of ids 16 to 31, bit 7 clear. -/
def cmdWords1 : List (Byte × Instr) :=
  [(0b00010000, .cmdFwUpdate16 0 false), (0b00010001, .cmdGetDeviceInfo 0 false),
   (0b00010010, .cmdUnlisted18 0 false), (0b00010011, .cmdUnlisted19 0 false),
   (0b00010100, .cmdUnlisted20 0 false), (0b00010101, .cmdUnlisted21 0 false),
   (0b00010110, .cmdUnlisted22 0 false), (0b00010111, .cmdUnlisted23 0 false),
   (0b00011000, .cmdUnlisted24 0 false), (0b00011001, .cmdUnlisted25 0 false),
   (0b00011010, .cmdUnlisted26 0 false), (0b00011011, .cmdUnlisted27 0 false),
   (0b00011100, .cmdUnlisted28 0 false), (0b00011101, .cmdUnlisted29 0 false),
   (0b00011110, .cmdUnlisted30 0 false), (0b00011111, .cmdUnlisted31 0 false)]

/-- The `CMD` bytes of ids 32 to 47, bit 7 clear. -/
def cmdWords2 : List (Byte × Instr) :=
  [(0b00100000, .cmdUnlisted32 0 false), (0b00100001, .cmdUnlisted33 0 false),
   (0b00100010, .cmdUnlisted34 0 false), (0b00100011, .cmdUnlisted35 0 false),
   (0b00100100, .cmdUnlisted36 0 false), (0b00100101, .cmdUnlisted37 0 false),
   (0b00100110, .cmdUnlisted38 0 false), (0b00100111, .cmdUnlisted39 0 false),
   (0b00101000, .cmdUnlisted40 0 false), (0b00101001, .cmdUnlisted41 0 false),
   (0b00101010, .cmdUnlisted42 0 false), (0b00101011, .cmdUnlisted43 0 false),
   (0b00101100, .cmdUnlisted44 0 false), (0b00101101, .cmdUnlisted45 0 false),
   (0b00101110, .cmdUnlisted46 0 false), (0b00101111, .cmdUnlisted47 0 false)]

/-- The `CMD` bytes of ids 48 to 63, bit 7 clear. -/
def cmdWords3 : List (Byte × Instr) :=
  [(0b00110000, .cmdUnlisted48 0 false), (0b00110001, .cmdUnlisted49 0 false),
   (0b00110010, .cmdUnlisted50 0 false), (0b00110011, .cmdUnlisted51 0 false),
   (0b00110100, .cmdUnlisted52 0 false), (0b00110101, .cmdUnlisted53 0 false),
   (0b00110110, .cmdUnlisted54 0 false), (0b00110111, .cmdUnlisted55 0 false),
   (0b00111000, .cmdUnlisted56 0 false), (0b00111001, .cmdUnlisted57 0 false),
   (0b00111010, .cmdUnlisted58 0 false), (0b00111011, .cmdUnlisted59 0 false),
   (0b00111100, .cmdUnlisted60 0 false), (0b00111101, .cmdUnlisted61 0 false),
   (0b00111110, .cmdUnlisted62 0 false), (0b00111111, .cmdUnlisted63 0 false)]

/-- The `CMD` bytes of ids 64 to 79, bit 7 clear. -/
def cmdWords4 : List (Byte × Instr) :=
  [(0b01000000, .cmdUnlisted64 0 false), (0b01000001, .cmdUnlisted65 0 false),
   (0b01000010, .cmdUnlisted66 0 false), (0b01000011, .cmdUnlisted67 0 false),
   (0b01000100, .cmdUnlisted68 0 false), (0b01000101, .cmdUnlisted69 0 false),
   (0b01000110, .cmdUnlisted70 0 false), (0b01000111, .cmdUnlisted71 0 false),
   (0b01001000, .cmdUnlisted72 0 false), (0b01001001, .cmdUnlisted73 0 false),
   (0b01001010, .cmdUnlisted74 0 false), (0b01001011, .cmdUnlisted75 0 false),
   (0b01001100, .cmdUnlisted76 0 false), (0b01001101, .cmdUnlisted77 0 false),
   (0b01001110, .cmdUnlisted78 0 false), (0b01001111, .cmdUnlisted79 0 false)]

/-- The `CMD` bytes of ids 80 to 95, bit 7 clear. -/
def cmdWords5 : List (Byte × Instr) :=
  [(0b01010000, .cmdUnlisted80 0 false), (0b01010001, .cmdUnlisted81 0 false),
   (0b01010010, .cmdUnlisted82 0 false), (0b01010011, .cmdUnlisted83 0 false),
   (0b01010100, .cmdUnlisted84 0 false), (0b01010101, .cmdUnlisted85 0 false),
   (0b01010110, .cmdUnlisted86 0 false), (0b01010111, .cmdUnlisted87 0 false),
   (0b01011000, .cmdUnlisted88 0 false), (0b01011001, .cmdUnlisted89 0 false),
   (0b01011010, .cmdUnlisted90 0 false), (0b01011011, .cmdUnlisted91 0 false),
   (0b01011100, .cmdUnlisted92 0 false), (0b01011101, .cmdUnlisted93 0 false),
   (0b01011110, .cmdUnlisted94 0 false), (0b01011111, .cmdUnlisted95 0 false)]

/-- The `CMD` bytes of ids 96 to 111, bit 7 clear. -/
def cmdWords6 : List (Byte × Instr) :=
  [(0b01100000, .cmdUnlisted96 0 false), (0b01100001, .cmdUnlisted97 0 false),
   (0b01100010, .cmdUnlisted98 0 false), (0b01100011, .cmdUnlisted99 0 false),
   (0b01100100, .cmdUnlisted100 0 false), (0b01100101, .cmdUnlisted101 0 false),
   (0b01100110, .cmdUnlisted102 0 false), (0b01100111, .cmdUnlisted103 0 false),
   (0b01101000, .cmdUnlisted104 0 false), (0b01101001, .cmdUnlisted105 0 false),
   (0b01101010, .cmdUnlisted106 0 false), (0b01101011, .cmdUnlisted107 0 false),
   (0b01101100, .cmdUnlisted108 0 false), (0b01101101, .cmdUnlisted109 0 false),
   (0b01101110, .cmdUnlisted110 0 false), (0b01101111, .cmdUnlisted111 0 false)]

/-- The `CMD` bytes of ids 112 to 127, bit 7 clear. -/
def cmdWords7 : List (Byte × Instr) :=
  [(0b01110000, .cmdUnlisted112 0 false), (0b01110001, .cmdUnlisted113 0 false),
   (0b01110010, .cmdUnlisted114 0 false), (0b01110011, .cmdUnlisted115 0 false),
   (0b01110100, .cmdUnlisted116 0 false), (0b01110101, .cmdUnlisted117 0 false),
   (0b01110110, .cmdUnlisted118 0 false), (0b01110111, .cmdUnlisted119 0 false),
   (0b01111000, .cmdUnlisted120 0 false), (0b01111001, .cmdUnlisted121 0 false),
   (0b01111010, .cmdUnlisted122 0 false), (0b01111011, .cmdUnlisted123 0 false),
   (0b01111100, .cmdUnlisted124 0 false), (0b01111101, .cmdUnlisted125 0 false),
   (0b01111110, .cmdUnlisted126 0 false), (0b01111111, .cmdUnlisted127 0 false)]

/-- A byte in `RxCmd` on port 0. -/
def readCmd (b : Byte) : Decoded := decode { sync := 0xA6, state := .rxCmd, port := 0 } [b]

theorem test_decode_cmd_0 : cmdWords0.all (fun x => readCmd x.1 = .instr x.2) = true := by decide
theorem test_decode_cmd_1 : cmdWords1.all (fun x => readCmd x.1 = .instr x.2) = true := by decide
theorem test_decode_cmd_2 : cmdWords2.all (fun x => readCmd x.1 = .instr x.2) = true := by decide
theorem test_decode_cmd_3 : cmdWords3.all (fun x => readCmd x.1 = .instr x.2) = true := by decide
theorem test_decode_cmd_4 : cmdWords4.all (fun x => readCmd x.1 = .instr x.2) = true := by decide
theorem test_decode_cmd_5 : cmdWords5.all (fun x => readCmd x.1 = .instr x.2) = true := by decide
theorem test_decode_cmd_6 : cmdWords6.all (fun x => readCmd x.1 = .instr x.2) = true := by decide
theorem test_decode_cmd_7 : cmdWords7.all (fun x => readCmd x.1 = .instr x.2) = true := by decide

/-- Bit 7 of a `CMD` byte is the ack request (R92, R103; 0xA6 in `RxCmd` is id 38, R186). -/
theorem test_decode_ack_bit :
    [(0x80, Instr.cmdNone 0 true), (0x81, .cmdAck 0 true), (0x82, .cmdPing 0 true), (0xFF, .cmdUnlisted127 0 true),
      (0xA6, .cmdUnlisted38 0 true)].all (fun x => readCmd x.1 = .instr x.2) = true := by decide

/-- `SYNC` in `WaitSync`, mid-frame, and as the second byte of a pair (R91, R181, R195). -/
theorem test_decode_sync :
    decode { sync := 0xA6, state := .waitSync, port := 3 } [0xA6] = .instr (.sync 3) ∧
    decode { sync := 0xA6, state := .mid .rxCrc8, port := 0 } [0xA6] = .instr (.rxByteSyncMidframe 0) ∧
    decode { sync := 0xA6, state := .waitSyncOrEscapedByte, port := 0 } [0xA6] = .instr (.rxEscapeConfirmed 0) := by
  decide

/-- Other bytes go to the handler of the state (R198). -/
theorem test_decode_handlers :
    [(RxState.waitSync, Instr.rxWaitSync 0 0x10), (.mid .rxSize, .rxRxSize 0 0x10), (.mid .rxCrc8, .rxRxCrc8 0 0x10),
      (.mid .rxData, .rxRxData 0 0x10), (.mid .rxCrc16Hi, .rxRxCrc16Hi 0 0x10), (.mid .rxCrc16Lo, .rxRxCrc16Lo 0 0x10),
      (.waitSyncOrEscapedByte, .rxAbandonRestart 0 0x10)].all
      (fun x => decode { sync := 0xA6, state := x.1, port := 0 } [0x10] = .instr x.2) = true := by decide

/-- A frame read in any state: E2, E6 and E12 of `spec/95_test_vectors.md`. -/
def readFrame (bs : List Byte) : Decoded := decode { sync := 0xA6, state := .waitSync, port := 0 } bs

theorem test_decode_frame_header_only : readFrame [0xA6, 0x82, 0x00, 0xA9] = .instr (.frameHeaderOnly 0 true 2 0xA9) ∧
    readFrame [0xA6, 0x85, 0x00, 0xC2] = .instr (.frameHeaderOnly 0 true 5 0xC2) := by decide
theorem test_decode_frame_with_data : readFrame [0xA6, 0x11, 0x03, 0x7E, 0x01, 0xA6, 0x02, 0x64, 0x97] =
    .instr (.frameWithData 0 false 17 0x7E [0x01, 0xA6, 0x02] 0x6497) := by decide
theorem test_decode_rejects : readFrame [] = .rejected .noBytes ∧ readFrame [0xA7, 0x02, 0x00, 0x1F] = .rejected .notSync ∧
    readFrame [0xA6, 0x02, 0x00] = .rejected .truncated ∧
    readFrame [0xA6, 0x02, 0x01, 0x1F, 0x00] = .rejected .wrongLength := by decide

/-- The words of the table as the host numbers them. -/
theorem test_table_words : decodeTableWord 8 0xA6 = some (.sync 0) ∧ decodeTableWord 8 0x82 = some (.cmdPing 0 true) ∧
    decodeTableWord 32 0xA682001F = some (.frameHeaderOnly 0 true 2 0x1F) ∧
    decodeTableWord 32 0xA61102AB = some (.frameWithData 0 false 17 0xAB [0, 0] 0) ∧
    decodeTableWord 16 0xA6 = none := by decide

/-- From reset with a word placed, the next step runs it: `SYNC` opens a frame, id 0 is an error, a frame with a wrong
check byte is read to its end. -/
theorem test_fetch_word : afterRx (step (State.reset.withFetchWord 8 0xA6)) (fun r => r.state = .rxCmd) = true ∧
    afterRx (step (State.reset.withFetchWord 8 0x80)) (fun r => r.state = .waitSync ∧ r.rxError = 1) = true ∧
    afterRx (step (State.reset.withFetchWord 8 0x11)) (fun r => r.state = .mid .rxSize ∧ r.cmdId = 17) = true := by
  decide

/-! ### The CRC engine (`spec/95_test_vectors.md` 2.1) -/

/-- K1 and K2: the check values over "123456789". -/
theorem test_crc_check_values :
    crc8Fold cfg [0x31, 0x32, 0x33, 0x34, 0x35, 0x36, 0x37, 0x38, 0x39] = 0xF4 ∧
    crc16Fold cfg [0x31, 0x32, 0x33, 0x34, 0x35, 0x36, 0x37, 0x38, 0x39] = 0x29B1 := by decide +kernel

/-- K3, K5 and K7 as operations. -/
theorem test_crc_steps :
    after (exec (.crc8Step .host (.value 0xA6 0x00)) (rxSt (rx .waitSync)))
      (fun t => (t.ctx .host).ret = .byte 0x7B) = true ∧
    after (exec (.crc16Step .host (.value 0xFF 0xFFFF)) (rxSt (rx .waitSync)))
      (fun t => (t.ctx .host).ret = .word 0xFF00) = true ∧
    after (exec (.crc16Step .host (.value 0x80 0x34DC)) (rxSt (rx .waitSync)))
      (fun t => (t.ctx .host).ret = .word 0x3B5F) = true := by decide +kernel

/-! ### Frames (2.2) and the decoder (1, 2.5) -/

/-- E6 and E10: the logical and the wire form. -/
theorem test_frames : frameOf cfg 0x11 [0x01, 0xA6, 0x02] = [0xA6, 0x11, 0x03, 0x7E, 0x01, 0xA6, 0x02, 0x64, 0x97] ∧
    wire 0xA6 (frameOf cfg 0x11 [0x01, 0xA6, 0x02]) = [0xA6, 0x11, 0x03, 0x7E, 0x01, 0xA6, 0xA6, 0x02, 0x64, 0x97] ∧
    wire 0xA6 (frameOf0 cfg 0xC6) = [0xA6, 0xC6, 0x00, 0xA6, 0xA6] := by decide +kernel

/-- S1: the registers after each byte of a Ping, by the rows those bytes are. -/
theorem test_s1_sync : afterRx (exec (.sync 0) (rxSt (rx .waitSync)))
    (fun r => r.state = .rxCmd ∧ r.crc8 = 0x7B ∧ r.crc16 = 0x34DC ∧ r.dataCount = 0) = true := by decide +kernel
theorem test_s1_cmd : afterRx (exec (.cmdPing 0 false) (rxSt { rx .rxCmd with crc8 := 0x7B, crc16 := 0x34DC }))
    (fun r => r.state = .mid .rxSize ∧ r.crc8 = 0x68 ∧ r.crc16 = 0x8A95 ∧ r.handler = some 2 ∧ r.cmdId = 2) = true := by
  decide +kernel
theorem test_s1_size : afterRx (exec (.rxRxSize 0 0x00) (rxSt { rx (.mid .rxSize) with crc8 := 0x68, crc16 := 0x8A95 }))
    (fun r => r.state = .mid .rxCrc8 ∧ r.crc8 = 0x1F ∧ r.crc16 = 0xA5C2 ∧ r.dataLength = 0) = true := by decide +kernel

/-- S3: `SYNC` in `RxCmd` is the command byte of id 0x26. -/
theorem test_s3_sync_in_rxCmd :
    afterRx (exec (.cmdUnlisted38 0 true) (rxSt { rx .rxCmd with crc8 := 0x7B, crc16 := 0x34DC }))
      (fun r => r.crc8 = 0x1D ∧ r.crc16 = 0x7FFB ∧ r.cmdId = 0x26 ∧ r.ackRequested ∧ r.handler = none) = true := by
  decide +kernel

/-- S1 and S2: whole header-only frames. -/
theorem test_ping_frame : after (exec (.frameHeaderOnly 0 false 2 0x1F) (rxSt (rx .waitSync)))
    (fun t => (t.port? 0).map Port.trace = some [.delivered 0 2 false [], .handlerCall 0 2 2 []] ∧
      (t.ctx (.decode 0)).todo = []) = true := by decide +kernel
theorem test_ping_ack_frame : after (exec (.frameHeaderOnly 0 true 2 0xA9) (rxSt (rx .waitSync)))
    (fun t => (t.ctx (.decode 0)).todo = [.rxSendAck 0] ∧ (t.rx? 0).map Rx.rxSuccess = some 1) = true := by
  decide +kernel

/-- RX17: an escaped run of data, `FRAME(91, [A6, A6])`; RX8: a wrong last octet. -/
theorem test_escaped_frame : afterRx (exec (.frameWithData 0 true 17 0xCF [0xA6, 0xA6] 0x6B58) (rxSt (rx .waitSync)))
    (fun r => r.rxSuccess = 1 ∧ r.rxError = 0 ∧ firstBytes r.buf 3 = [some 0xA6, some 0xA6, none]) = true := by
  decide +kernel
theorem test_corrupt_frame : afterRx (exec (.frameWithData 0 false 4 0x66 [0x10] 0xB890) (rxSt (rx .waitSync)))
    (fun r => r.rxSuccess = 0 ∧ r.rxError = 1 ∧ r.state = .waitSync) = true := by decide +kernel

/-- RX9: a check byte corrupted to `SYNC` is no error yet; the next `SYNC` compares it. -/
theorem test_crc_byte_sync : afterRx (exec (.rxByteSyncMidframe 0) (rxSt { rx (.mid .rxCrc8) with crc8 := 0x1F }))
    (fun r => r.state = .waitSyncOrEscapedByte ∧ r.saved = .rxCrc8 ∧ r.rxError = 0) = true ∧
    afterRx (exec (.rxEscapeConfirmed 0) (rxSt { rx .waitSyncOrEscapedByte with saved := .rxCrc8, crc8 := 0x1F }))
      (fun r => r.state = .waitSync ∧ r.rxError = 1) = true := by decide +kernel

/-- RX9 (b) and RX21: a lone `SYNC` restarts; with id 0 that is one error, for the new frame. -/
theorem test_abandon : afterRx (exec (.rxAbandonRestart 0 0x02) (rxSt (rx .waitSyncOrEscapedByte)))
    (fun r => r.state = .mid .rxSize ∧ r.crc8 = 0x68 ∧ r.crc16 = 0x8A95 ∧ r.rxError = 0) = true ∧
    after (exec (.rxAbandonRestart 0 0x00) (rxSt (rx .waitSyncOrEscapedByte)))
      (fun t => (t.port? 0).map Port.trace = some [.abandoned 0, .rxError 0 .invalidCmd]) = true := by decide +kernel

/-- RX23: an overrun stores nothing; X7: the error counter wraps. -/
theorem test_overrun : afterRx (exec (.rxRxData 0 0x03) { rxSt { rx (.mid .rxData) with dataLength := 3, dataCount := 2 }
      with cfg := { cfg with rxDataCap := 2 } })
    (fun r => r.buf = [] ∧ r.rxError = 1 ∧ r.state = .waitSync) = true := by decide +kernel
theorem test_error_counter_wraps : afterRx (exec (.rxFail 0 .invalidCmd) (rxSt { rx .rxCmd with rxError := 4294967295 }))
    (fun r => r.rxError = 0) = true := by decide +kernel

/-- RX8: the last data byte steps the CRC-16 to the octets that follow. -/
theorem test_data_byte : afterRx (exec (.rxRxData 0 0x10) (rxSt { rx (.mid .rxData) with dataLength := 1, crc16 := 0xAABE }))
    (fun r => r.state = .mid .rxCrc16Hi ∧ r.crc16 = 0xB891 ∧ r.buf = [(0, 0x10)] ∧ r.dataCount = 1) = true := by
  decide +kernel
theorem test_crc16_octets :
    afterRx (exec (.rxRxCrc16Hi 0 0xB8) (rxSt { rx (.mid .rxCrc16Hi) with crc16 := 0xB891 }))
      (fun r => r.state = .mid .rxCrc16Lo) = true ∧
    afterRx (exec (.rxRxCrc16Lo 0 0x90) (rxSt { rx (.mid .rxCrc16Lo) with crc16 := 0xB891 }))
      (fun r => r.state = .waitSync ∧ r.rxError = 1) = true := by decide +kernel

/-! ### The ring (2.3) -/

/-- B2, B3 and B5. -/
theorem test_ring_counts : (ring 10 0).free = 5 ∧ (ring 10 0).used = 10 ∧ (ring 14 5).free = 6 ∧
    (ring 14 5).readableRun = (5, 9) ∧ (ring 0 1).free = 0 ∧ (ring 0 1).used = 15 ∧ (ring 5 6).readableRun = (6, 10) := by
  decide

/-- B7: a raw `SYNC` is not doubled. -/
theorem test_write_raw : afterTx (exec (.cbWriteRaw (.writer 0) 0 (.lit 0xA6)) (txSt (heldRing 14 5 (.count 0))))
    (fun T => T.buf = [(14, 0xA6)] ∧ T.head = 14 ∧ T.theCall.prov = .count 1) = true := by decide

/-- B11: a pair split across the end of the array; B9: no room for the pair. -/
theorem test_write_esc : afterTx (exec (.cbWriteEsc (.writer 0) 0 (.lit 0xA6)) (txSt (heldRing 13 5 (.count 2))))
    (fun T => T.buf = [(0, 0xA6), (15, 0xA6)] ∧ T.theCall.prov = .count 4) = true := by decide
theorem test_write_esc_poison : afterTx (exec (.cbWriteEsc (.writer 0) 0 (.lit 0xA6)) (txSt (heldRing 2 0 (.count 12))))
    (fun T => T.buf = [] ∧ T.theCall.prov = .poison) = true := by decide

/-- B14: a commit wraps; B13: a poisoned one moves nothing. -/
theorem test_commit : afterTx (exec (.cbCommit (.writer 0) 0) (txSt (heldRing 14 8 (.count 4))))
    (fun T => T.head = 2 ∧ T.call = none) = true ∧
    afterTx (exec (.cbCommit (.writer 0) 0) (txSt (heldRing 14 8 .poison))) (fun T => T.head = 14) = true := by decide

/-- B6: an advance over the end of the array. -/
theorem test_advance : afterTx (exec (.cbAdvance (.drain 0) 0 10) (txSt (ring 5 6)))
    (fun T => T.tail = 0 ∧ T.readableRun = (0, 5)) = true := by decide

/-- B16, B17, B18: one holder; another's claim waits, the holder's own too; another's release is refused. -/
theorem test_lock : afterTx (exec (.cbClaim (.writer 1) 0) (txSt (ring 0 0))) (fun T => T.lock = .held (.writer 1)) = true ∧
    after (exec (.cbClaim (.writer 1) 0) (txSt (heldRing 0 0 (.count 0))))
      (fun t => (t.ctx (.writer 1)).todo = [.cbClaim (.writer 1) 0]) = true ∧
    exec (.cbRelease (.writer 1) 0) (txSt (heldRing 0 0 (.count 0))) = .refused .notLockHolder :=
  ⟨by decide, by decide, rfl⟩

/-! ### The generator (2.4), the tables (2.6), the port manager (2.7) -/

/-- GN1 and S4. -/
theorem test_gen_header_only : afterTx (exec (.genHeaderOnly (.writer 0) 0 0x02) (txSt (heldRing 0 0 (.count 0))))
    (fun T => T.buf = [(0, 0xA6), (1, 0x02), (2, 0x00), (3, 0x1F)] ∧ T.head = 4) = true ∧
    afterTx (exec (.genHeaderOnly (.writer 0) 0 0x02) (txSt (heldRing 10 0 (.count 0))))
      (fun T => T.buf = [] ∧ T.head = 10) = true := by decide +kernel

/-- P2 step 1: a frame with an escaped byte through the end of the array. -/
theorem test_send : after (exec (.generateAndSend (.writer 0) 0x11 0 [0x01, 0xA6, 0x02]) (txSt (ring 12 12)))
    (fun t => (t.tx? 0).map (fun T => (T.head, T.lock, firstBytes T.buf 6)) =
        some (6, .free, [some 0x01, some 0xA6, some 0xA6, some 0x02, some 0x64, some 0x97]) ∧
      (t.ctx (.writer 0)).ret = .bool true ∧ (t.ctx (.writer 0)).todo = [.signal 0]) = true := by decide +kernel

/-- The variant of P5: a late failure leaves the write cursor and the committed region. -/
theorem test_send_late_failure :
    afterTx (exec (.generateAndSend (.writer 0) 0x03 0 [0xA6])
      (txSt { ring 0 8 with buf := [(8, 0x11), (15, 0x22)] }))
      (fun T => T.head = 0 ∧ T.lock = .free ∧ firstBytes (T.buf.drop 7) 16 =
        [none, none, none, none, none, none, none, none, some 0x11, none, none, none, none, none, none, some 0x22] ∧
        firstBytes T.buf 7 = [some 0xA6, some 0x03, some 0x01, some 0x0D, some 0xA6, some 0xA6, some 0xF9]) = true := by
  decide +kernel

/-- M2 and M1: without a generator, and without a port, nothing is touched. -/
theorem test_send_not_started :
    after (exec (.generateAndSend (.writer 0) 0x05 0 []) (txSt (ring 0 0)))
      (fun t => t = (txSt (ring 0 0)).setRet (.writer 0) (.bool false)) = true ∧
    after (exec (.generateAndSend (.writer 0) 0x02 2 []) (txSt (ring 0 0)))
      (fun t => t = (txSt (ring 0 0)).setRet (.writer 0) (.bool false)) = true := by decide +kernel

/-- T1, T2, T3, T4, T5 and T7. -/
theorem test_lookups : [0, 3, 5, 9, 18, 38, 126, 127].all (fun i => lookupDec cfg i = none) = true ∧
    lookupDec cfg 2 = some 2 ∧ lookupDec cfg 17 = some 17 ∧ lookupGen cfg 0 = none ∧
    lookupGen cfg 1 = some .headerOnly ∧ lookupGen cfg 2 = some .headerOnly ∧ lookupGen cfg 3 = some .caller := by decide

/-- M9: a second signal is coalesced; M8: the wake clears it. -/
theorem test_signal : after (exec (.signal 0) (one { port (rx .waitSync) (ring 0 0) Drain.reset with pending := true }))
    (fun t => (t.port? 0).map Port.pending = some true) = true ∧
    after (exec (.drainWake 0) (one { port (rx .waitSync) (ring 0 0) Drain.reset with pending := true }))
      (fun t => (t.port? 0).map Port.pending = some false ∧
        t.drain? 0 = some { state := .draining, line := .testEmpty }) = true := by decide

/-- M6: an inactive transport; M7: a failed send. The read cursor stays. -/
theorem test_drain_aborts :
    after (exec (.drainIteration 0) (one { port (rx .waitSync) (ring 4 0) { state := .draining, line := .queryActive } with
        env := { Env.quiet with active := [false] } }))
      (fun t => t.drain? 0 = some Drain.asleep ∧ (t.port? 0).map Port.trace = some [.drainAbort 0 .inactive]) = true ∧
    after (exec (.drainIteration 0) (one (port (rx .waitSync) (ring 4 0)
        { state := .draining, line := .settle [0xA6, 0x01] false })))
      (fun t => t.drain? 0 = some Drain.asleep ∧ (t.tx? 0).map Machine.Ring.tail = some 0) = true := by decide

/-- M5: the first run of a wrapped ring; M11: a timeout changes no register. -/
theorem test_drain_run :
    after (exec (.drainIteration 0) (one (port (rx .waitSync)
        { ring 2 14 with buf := [(0, 0x00), (1, 0x20), (14, 0xA6), (15, 0x01)] } { state := .draining, line := .readRun })))
      (fun t => t.drain? 0 = some { state := .draining, line := .sendRun [0xA6, 0x01] }) = true := by decide
theorem test_decode_timeout :
    after (exec (.decodeTaskIteration 0) (one { port (rx (.mid .rxData)) (ring 0 0) Drain.reset with
        env := { Env.quiet with input := [.timeout, .byte 0x10] } }))
      (fun t => t.rx? 0 = some (rx (.mid .rxData)) ∧ (t.env 0).input = [.byte 0x10]) = true := by decide

/-! ### States that meet the hypotheses of the statements -/

/-- An agent that is a thread of the program. -/
def w0 : Agent := .writer 0

/-- A ring that holds one committed byte. -/
def oneByte : Machine.Ring := (((Ring.reset 16).claim w0).writeRaw 0x11).commit.1.release

theorem oneByte_inv : oneByte.Inv :=
  (((Ring.inv_reset (by decide)).claim w0).writeRaw (by decide) 0x11).commit.release

/-- A ring with two committed bytes over the end of its array. -/
def wrapped : Machine.Ring := { ring 1 15 with buf := Mem.write (Mem.write [] 15 0xA6) 0 0x02 }

theorem wrapped_inv : wrapped.Inv where
  size_ge := by decide
  head_lt := by decide
  tail_lt := by decide
  buf_wf := by decide
  buf_below := Mem.below_write _ (by decide) (Mem.below_write _ (by decide) (Mem.below_nil 16))
  committed := by unfold Mem.Written; decide
  call_inv := nofun

theorem rx_inv (st : RxState) : (rx st).Inv cfg 0 := (Rx.inv_reset cfg 0).congr rfl rfl rfl rfl rfl

/-- A state whose port keeps the invariants keeps them. -/
theorem one_inv {P : Port} (h : P.Inv cfg 0) : (one P).Inv where
  cfg_wf := by show cfg.wf = true; decide
  ports_le := by simp [one]
  ports_inv := by
    intro p Q hQ
    cases p with
    | zero => cases hQ; exact h
    | succ p => simp [State.port?, one] at hQ

/-- Registers in the middle of a frame's data. -/
def midData : Rx := { rx (.mid .rxData) with dataLength := 1 }

/-- A state in which everything is under way: a frame is half received, an ACK is owed, a drain has a run in hand. -/
def busy : State :=
  { one (port midData oneByte { state := .draining, line := .sendRun [0x11] }) with
    sched := [.decode 0, .drain 0]
    ctxs := [(.decode 0, { todo := [.rxSendAck 0], ret := .nothing })] }

theorem busy_inv : busy.Inv :=
  (one_inv (P := port midData oneByte { state := .draining, line := .sendRun [0x11] })
    ⟨by intro r hr; cases hr; exact (Rx.inv_reset cfg 0).congr rfl rfl rfl rfl rfl,
      by intro T hT; cases hT; exact oneByte_inv, fun _ => rfl⟩).congr rfl rfl

theorem busy_ports {p : PortId} {P : Port} (h : busy.port? p = some P) :
    p = 0 ∧ P = port midData oneByte { state := .draining, line := .sendRun [0x11] } := by
  cases p with
  | zero => cases h; exact ⟨rfl, rfl⟩
  | succ p => simp [State.port?, busy, one] at h

theorem busy_good : busy.Good where
  inv := busy_inv
  decoder := by
    intro p r hr
    obtain ⟨P, hP, hPr⟩ := State.port?_of_rx? hr
    obtain ⟨-, rfl⟩ := busy_ports hP
    cases hPr
    exact ⟨nofun, by show (0 : Nat) < 1; decide⟩
  drain := by
    intro p d T hd hT
    obtain ⟨P, hP, hPd⟩ := State.port?_of_drain? hd
    obtain ⟨Q, hQ, hQT⟩ := State.port?_of_tx? hT
    obtain ⟨-, rfl⟩ := busy_ports hP
    obtain ⟨-, rfl⟩ := busy_ports hQ
    cases hPd; cases hQT
    intro _
    decide
  programs := by
    intro a i hi
    by_cases ha : a = .decode 0
    · subst ha
      have : i = .rxSendAck 0 := by simpa [busy, State.ctx, ctxOf] using hi
      subst this; rfl
    · have : busy.ctx a = Ctx.idle := by simp [busy, State.ctx, ctxOf, Ne.symm ha]
      rw [this] at hi; cases hi
  loops := by intro p; simp [busy, State.ctx, ctxOf, Ctx.idle]

theorem wit_StepKeepsInv : busy.Inv ∧ ∃ t, step busy = .next t := ⟨busy_inv, _, rfl⟩
theorem wit_StepProgress : busy.Good := busy_good
theorem wit_ConfigurationConstant : ∃ t, step busy = .next t := ⟨_, rfl⟩
theorem wit_ResetGood : Build.wf { Config.build with ports := List.replicate 5 { Config.portCfg with cbSize := some 7 } } =
    true ∧ Build.wf { Config.build with ports := [{ Config.portCfg with cbSize := none, hasDrain := false }] } = true := by
  decide
theorem wit_ResetValues : Config.build.ports[0]? = some Config.portCfg ∧ Config.portCfg.hasRx = true ∧
    Config.portCfg.cbSize = some 16 ∧ Config.portCfg.hasDrain = true := by decide

theorem wit_DecodeEncode :
    (Instr.wf (.sync 4) = true ∧ Instr.readIn 4 .waitSync (.sync 4) ∧ encode 0xA6 (.sync 4) = some [0xA6]) ∧
    (Instr.readIn 0 (.mid .rxSize) (.rxByteSyncMidframe 0) ∧ encode 0xA6 (.rxByteSyncMidframe 0) = some [0xA6]) ∧
    (Instr.wf (.cmdUnlisted127 0 true) = true ∧ Instr.readIn 0 .rxCmd (.cmdUnlisted127 0 true) ∧
      encode 0xA6 (.cmdUnlisted127 0 true) = some [0xFF]) ∧
    (Instr.readIn 0 .rxCmd (.frameHeaderOnly 0 true 127 0xFF) ∧
      encode 0xA6 (.frameHeaderOnly 0 true 127 0xFF) = some [0xA6, 0xFF, 0x00, 0xFF]) ∧
    (Instr.wf (.frameWithData 0 false 0 0 [0xA6] 0xFFFF) = true ∧
      encode 0xA6 (.frameWithData 0 false 0 0 [0xA6] 0xFFFF) = some [0xA6, 0x00, 0x01, 0x00, 0xA6, 0xFF, 0xFF]) :=
  ⟨⟨by decide, ⟨rfl, rfl⟩, by decide⟩, ⟨⟨rfl, _, rfl⟩, by decide⟩, ⟨by decide, ⟨true, 127, rfl, rfl⟩, by decide⟩,
    ⟨rfl, by decide⟩, by decide, by decide⟩
theorem wit_EncodeDecode : decode ⟨0xA6, .rxCmd, 0⟩ [0x00] = .instr (.cmdNone 0 false) ∧
    decode ⟨0xA6, .mid .rxData, 0⟩ [0xA6, 0x02, 0x00, 0x1F] = .instr (.frameHeaderOnly 0 false 2 0x1F) := by decide

/-- A state in which agent `a` has the turn, with these answers to come, these calls to make and this handler running. -/
def turnSt (a : Agent) (e : Env) (todo : List Instr) (h : Option Handler) : State :=
  { one { port { rx .waitSync with inHandler := h } (ring 0 0) Drain.reset with env := e } with
    sched := [a], ctxs := [(a, { todo := todo, ret := .nothing })] }

/-- DecodeTask(0) has the turn and nothing to do but to read this input. -/
def inputSt (input : List RxAnswer) : State := turnSt (.decode 0) { Env.quiet with input := input } [] none

theorem wit_StepRunsByte : (inputSt [.byte 0xA6]).sched = .decode 0 :: [] ∧
    (inputSt [.byte 0xA6]).rx? 0 = some (rx .waitSync) ∧ (rx .waitSync).inHandler = none ∧
    ((inputSt [.byte 0xA6]).ctx (.decode 0)).todo = [] ∧ ((inputSt [.byte 0xA6]).env 0).input = .byte 0xA6 :: [] ∧
    decode ((inputSt [.byte 0xA6]).decodeCtx 0 (rx .waitSync)) [0xA6] = .instr (.sync 0) := by decide
theorem wit_StepRunsOperation :
    (turnSt (.decode 0) Env.quiet [.rxSendAck 0] none).sched = .decode 0 :: [] ∧
    ((turnSt (.decode 0) Env.quiet [.rxSendAck 0] none).ctx (.decode 0)).todo = .rxSendAck 0 :: [] ∧
    (turnSt (.decode 0) Env.quiet [.rxSendAck 0] none).rx? 0 = some (rx .waitSync) ∧
    (rx .waitSync).inHandler = none ∧ mayExecute (.decode 0) (.rxSendAck 0) = true ∧
    mayExecute (.writer 0) (.rxSendAck 0) = false := by decide
theorem wit_StepTaskTurns_decode : (inputSt []).sched = .decode 0 :: [] ∧ (inputSt []).rx? 0 = some (rx .waitSync) ∧
    ((inputSt []).ctx (.decode 0)).todo = [] ∧ ((inputSt []).env 0).input = [] := by decide
theorem wit_StepTaskTurns_handler :
    (turnSt (.decode 0) Env.quiet [] (some 2)).rx? 0 = some { rx .waitSync with inHandler := some 2 } ∧
    ((turnSt (.decode 0) Env.quiet [] (some 2)).env 0).handlerReturns = [] ∧
    (turnSt (.decode 0) { Env.quiet with handlerReturns := [[]] } [] (some 2)).rx? 0 =
      some { rx .waitSync with inHandler := some 2 } ∧
    ((turnSt (.decode 0) { Env.quiet with handlerReturns := [[]] } [] (some 2)).env 0).handlerReturns = [] :: [] := by
  decide
theorem wit_StepTaskTurns_drain : (turnSt (.drain 0) Env.quiet [] none).drain? 0 = some Drain.reset ∧
    Drain.reset.state = .blocked ∧ ((turnSt (.drain 0) Env.quiet [] none).ctx (.drain 0)).todo = [] ∧
    State.sched { busy with sched := [.drain 0] } = .drain 0 :: [] ∧
    State.drain? { busy with sched := [.drain 0] } 0 = some { state := .draining, line := .sendRun [0x11] } ∧
    (State.ctx { busy with sched := [.drain 0] } (.drain 0)).todo = [] ∧
    (turnSt .host Env.quiet [] none).sched = .host :: [] ∧ ((turnSt .host Env.quiet [] none).ctx .host).todo = [] := by
  decide
theorem wit_StepTaskTurns_absent :
    State.sched { turnSt (.drain 0) Env.quiet [.cbAdvance (.drain 0) 0 1] none with ports := [] } = .drain 0 :: [] ∧
    State.drain? { turnSt (.drain 0) Env.quiet [.cbAdvance (.drain 0) 0 1] none with ports := [] } 0 = none ∧
    State.sched { inputSt [.byte 0xA6] with ports := [] } = .decode 0 :: [] ∧
    State.rx? { inputSt [.byte 0xA6] with ports := [] } 0 = none := by decide

/-- A port with a ring and no drain handle: a turn in the drain task's name leaves the read cursor where it is (R41). -/
def noDrainSt : State :=
  { turnSt (.drain 0) Env.quiet [.cbAdvance (.drain 0) 0 1] none with
    ports := [{ port (rx .waitSync) (ring 1 0) Drain.reset with drain := none }] }

theorem test_no_drain_agent : step noDrainSt = .next { noDrainSt with sched := [] } := rfl

/-! The decoder. -/

theorem wit_ByteRowsAreByteSteps : (rxSt (rx .rxCmd)).rx? 0 = some (rx .rxCmd) ∧
    decode ((rxSt (rx .rxCmd)).decodeCtx 0 (rx .rxCmd)) [0xFF] = .instr (.cmdUnlisted127 0 true) := by decide
theorem wit_CmdRowsAreByteSteps : Instr.cmdOperands (.cmdUnlisted127 4 true) = some (4, true, 127) ∧
    Instr.cmdOperands (.cmdNone 0 false) = some (0, false, 0) := by decide
theorem wit_WaitSync : (rxSt (rx .waitSync)).rx? 0 = some (rx .waitSync) ∧ (rx .waitSync).state = .waitSync ∧
    0xA5 ≠ (rxSt (rx .waitSync)).cfg.sync := by decide
theorem wit_Reseed : (rxSt midData).rx? 0 = some midData := by decide
theorem wit_RxCmd : (rxSt (rx .rxCmd)).rx? 0 = some (rx .rxCmd) ∧ (rx .rxCmd).port = 0 ∧ (rx .rxCmd).state = .rxCmd ∧
    cmdIdOf 0x01 ≠ 0 ∧ cmdIdOf 0xFF ≠ 0 ∧ Instr.cmdOperands (.cmdAck 0 true) = some (0, true, 1) ∧
    (1 : BitVec 7) ≠ 0 := by decide
theorem wit_RxSize : (rxSt (rx (.mid .rxSize))).rx? 0 = some (rx (.mid .rxSize)) := by decide
theorem wit_RxCrc8 : (rxSt { rx (.mid .rxCrc8) with dataLength := 255 }).rx? 0 =
      some { rx (.mid .rxCrc8) with dataLength := 255 } ∧ (255 : Byte) ≠ 0 ∧ (0x01 : Byte) ≠ (rx (.mid .rxCrc8)).crc8 ∧
    (rxSt (rx (.mid .rxCrc8))).rx? 0 = some (rx (.mid .rxCrc8)) ∧ (rx (.mid .rxCrc8)).port = 0 ∧
    (rx (.mid .rxCrc8)).dataLength = 0 := by decide
theorem wit_FramingError : (rxSt midData).rx? 0 = some midData ∧ midData.port = 0 := by decide

/-- A frame's data of one byte, all received. -/
def received : Rx := { rx (.mid .rxCrc16Lo) with dataLength := 1, dataCount := 1, buf := [(0, 0x10)], crc16 := 0xB891 }

theorem received_holds : received.buf.Holds 0 [0x10] := by
  intro k hk
  have : k = 0 := by simpa using hk
  subst this; rfl

theorem wit_Complete : (rxSt received).rx? 0 = some received ∧ received.port = 0 ∧
    [(0x10 : Byte)].length = received.dataLength.toNat ∧ [(0x10 : Byte)].length ≤ (rxSt received).cfg.rxDataCap ∧
    received.buf.Holds 0 [0x10] := ⟨by decide, by decide, by decide, by decide, received_holds⟩
theorem wit_RxData : (rxSt { midData with dataCount := 254 }).rx? 0 = some { midData with dataCount := 254 } ∧
    midData.port = 0 ∧ midData.state = .mid .rxData ∧ 254 < (rxSt midData).cfg.rxDataCap ∧
    (rxSt { midData with dataCount := 255 }).rx? 0 = some { midData with dataCount := 255 } ∧
    (rxSt midData).cfg.rxDataCap ≤ 255 := by decide
theorem wit_RxCrc16 : (rxSt received).rx? 0 = some received ∧ received.state = .mid .rxCrc16Lo ∧
    0x90 ≠ loOctet received.crc16 ∧ 0xB9 ≠ hiOctet received.crc16 ∧
    [(0x10 : Byte)].length = received.dataLength.toNat ∧ received.buf.Holds 0 [0x10] ∧
    (rxSt { received with state := .mid .rxCrc16Hi }).rx? 0 = some { received with state := .mid .rxCrc16Hi } :=
  ⟨by decide, by decide, by decide, by decide, by decide, received_holds, by decide⟩
theorem wit_EntryDispatch : (rxSt (rx (.mid .rxCrc16Lo))).rx? 0 = some (rx (.mid .rxCrc16Lo)) ∧
    0xA7 ≠ (rxSt (rx (.mid .rxCrc16Lo))).cfg.sync ∧ (rxSt (rx .waitSync)).rx? 0 = some (rx .waitSync) ∧
    (rxSt (rx .rxCmd)).rx? 0 = some (rx .rxCmd) ∧
    (rxSt (rx .waitSyncOrEscapedByte)).rx? 0 = some (rx .waitSyncOrEscapedByte) := by decide
theorem wit_EscapeConfirmed : (rxSt (rx .waitSyncOrEscapedByte)).rx? 0 = some (rx .waitSyncOrEscapedByte) ∧
    (rx .waitSyncOrEscapedByte).saved = .rxSize ∧
    (rxSt { rx .waitSyncOrEscapedByte with saved := .rxData, dataCount := 254 }).rx? 0 =
      some { rx .waitSyncOrEscapedByte with saved := .rxData, dataCount := 254 } ∧
    254 < (rxSt (rx .waitSyncOrEscapedByte)).cfg.rxDataCap := by decide
theorem wit_AbandonRestart : (rxSt (rx .waitSyncOrEscapedByte)).rx? 0 = some (rx .waitSyncOrEscapedByte) ∧
    (rx .waitSyncOrEscapedByte).port = 0 ∧ 0x01 ≠ (rxSt (rx .waitSyncOrEscapedByte)).cfg.sync ∧ cmdIdOf 0x01 ≠ 0 ∧
    0x80 ≠ (rxSt (rx .waitSyncOrEscapedByte)).cfg.sync ∧ cmdIdOf 0x80 = 0 := by decide
theorem wit_ByteStepTotal : (rxSt midData).rx? 0 = some midData ∧ midData.Inv cfg 0 ∧ midData.Coherent :=
  ⟨by decide, (Rx.inv_reset cfg 0).congr rfl rfl rfl rfl rfl, nofun, by show (0 : Nat) < 1; decide⟩
theorem wit_NoPartialDelivery : ∃ t Q, exec (.rxStep 0 0x91) (rxSt received) = .next t ∧ t.port? 0 = some Q ∧
    .delivered 0 0 false [0x10] ∈ Q.trace.drop (port received (ring 0 0) Drain.reset).trace.length :=
  ⟨_, _, rfl, rfl, by decide⟩
theorem wit_RoundTrip : cfg.wf = true ∧ (rxSt (rx .waitSync)).rx? 0 = some (rx .waitSync) ∧
    (rx .waitSync).Inv cfg 0 ∧ (rx .waitSync).inHandler = none ∧ (127 : BitVec 7) ≠ 0 ∧
    cmdByte true 127 ≠ cfg.sync ∧ ([] : List Byte).length ≤ 255 ∧ (List.replicate 255 cfg.sync).length ≤ cfg.rxDataCap :=
  ⟨by decide, by decide, rx_inv _, by decide, by decide, by decide, by decide, by decide +kernel⟩
theorem wit_CorruptFrame : cfg.wf = true ∧ (rxSt (rx .waitSync)).rx? 0 = some (rx .waitSync) ∧
    (rx .waitSync).Inv cfg 0 ∧ cmdByte false 2 ≠ cfg.sync ∧
    (0x1E ≠ headerCrc8 cfg (cmdByte false 2) [] ∧ 0x1E ≠ cfg.sync) ∧
    (0x90 ≠ loOctet (frameCrc16 cfg (cmdByte false 4) [0x10]) ∧ 0x90 ≠ cfg.sync) :=
  ⟨by decide, by decide, rx_inv _, by decide, by decide +kernel, by decide +kernel⟩
theorem wit_SendAck : cfg.wf = true ∧ (txSt (ring 9 0)).tx? 0 = some (ring 9 0) ∧ (ring 9 0).CursorsIn ∧
    (ring 9 0).lock = .free ∧ (ring 9 0).free = 6 ∧
    (txSt (ring 10 0)).tx? 0 = some (ring 10 0) ∧ (ring 10 0).CursorsIn ∧ (ring 10 0).free = 5 ∧
    (txSt (heldRing 0 0 (.count 0))).tx? 0 = some (heldRing 0 0 (.count 0)) ∧ (heldRing 0 0 (.count 0)).CursorsIn ∧
    (heldRing 0 0 (.count 0)).lock = .held w0 ∧ State.tx? { (txSt (ring 0 0)) with ports := [] } 0 = none := by
  unfold Ring.CursorsIn; decide
theorem wit_DecoderFrame : Instr.rxPort? (.rxComplete 0) = some 0 ∧ Instr.rxPort? (.cmdUnlisted127 0 true) = some 0 ∧
    ∃ t, exec (.rxComplete 0) (rxSt received) = .next t := ⟨rfl, rfl, _, rfl⟩
theorem wit_ReceiverOwnership : Instr.rxPort? (.drainIteration 0) = none ∧ Instr.rxPort? (.rxSendAck 0) = none ∧
    (∃ t, exec (.drainIteration 0) busy = .next t) ∧ (∃ t, step (turnSt .host Env.quiet [.signal 0] none) = .next t) ∧
    (turnSt .host Env.quiet [.rxStep 0 0x11] none).sched = .host :: [] ∧ Agent.host ≠ .decode 0 ∧
    ((turnSt .host Env.quiet [.rxStep 0 0x11] none).ctx .host).todo = .rxStep 0 0x11 :: [] ∧
    Instr.rxPort? (.rxStep 0 0x11) = some 0 := ⟨rfl, rfl, ⟨_, rfl⟩, ⟨_, rfl⟩, by decide, by decide, by decide, rfl⟩
theorem wit_DecodeRound : (inputSt []).rx? 0 = some (rx .waitSync) ∧ ((inputSt []).env 0).input = [] ∧
    ((inputSt [.timeout]).env 0).input = .timeout :: [] ∧ ((inputSt [.byte 0xFF]).env 0).input = .byte 0xFF :: [] ∧
    (rx .waitSync).Inv cfg 0 ∧ (rx .waitSync).Coherent :=
  ⟨by decide, by decide, by decide, by decide, rx_inv _, nofun, trivial⟩

/-! The ring, the generator, the port manager and the drain. -/

theorem wit_CrcSteps : (txSt (heldRing 0 0 (.count 0))).tx? 0 = some (heldRing 0 0 (.count 0)) ∧
    (heldRing 0 0 (.count 0)).lock = .held w0 := by decide
theorem wit_RingCounts : (ring 0 0).CursorsIn ∧ (ring 15 0).CursorsIn ∧ (ring 14 15).CursorsIn := by
  unfold Ring.CursorsIn; decide
theorem wit_RingLock : (txSt (ring 0 0)).tx? 0 = some (ring 0 0) ∧ (ring 0 0).lock = .free ∧
    (txSt (heldRing 0 0 .poison)).tx? 0 = some (heldRing 0 0 .poison) ∧ (heldRing 0 0 .poison).lock = .held w0 := by
  decide
theorem wit_RingQueries : (txSt (heldRing 5 6 (.count 0))).tx? 0 = some (heldRing 5 6 (.count 0)) ∧
    (heldRing 5 6 (.count 0)).lock = .held w0 ∧ (heldRing 5 6 (.count 0)).head < (heldRing 5 6 (.count 0)).tail ∧
    (txSt (ring 6 6)).tx? 0 = some (ring 6 6) ∧ (ring 6 6).tail ≤ (ring 6 6).head := by decide
theorem wit_WriteRaw : (txSt (heldRing 0 0 (.count 14))).tx? 0 = some (heldRing 0 0 (.count 14)) ∧
    (heldRing 0 0 (.count 14)).lock = .held w0 ∧ (heldRing 0 0 (.count 14)).theCall.prov = .count 14 ∧
    14 + 1 ≤ (heldRing 0 0 (.count 14)).free ∧
    (txSt (heldRing 0 0 (.count 15))).tx? 0 = some (heldRing 0 0 (.count 15)) ∧
    (heldRing 0 0 (.count 15)).lock = .held w0 ∧ (heldRing 0 0 (.count 15)).theCall.prov = .count 15 ∧
    (heldRing 0 0 (.count 15)).free < 15 + 1 := by decide
theorem wit_WriteEsc_sync : (txSt (heldRing 0 0 (.count 13))).tx? 0 = some (heldRing 0 0 (.count 13)) ∧
    (heldRing 0 0 (.count 13)).CursorsIn ∧ (heldRing 0 0 (.count 13)).theCall.prov = .count 13 ∧
    2 = (if byteOf (heldRing 0 0 (.count 13)) (.lit 0xA6) = (txSt (heldRing 0 0 (.count 13))).cfg.sync then 2 else 1) ∧
    13 + 2 ≤ (heldRing 0 0 (.count 13)).free ∧
    (txSt (heldRing 0 0 (.count 14))).tx? 0 = some (heldRing 0 0 (.count 14)) ∧
    (heldRing 0 0 (.count 14)).CursorsIn ∧ (heldRing 0 0 (.count 14)).free < 14 + 2 := by
  unfold Ring.CursorsIn; decide
theorem wit_WriteEsc_other : (txSt (heldRing 0 0 (.count 14))).tx? 0 = some (heldRing 0 0 (.count 14)) ∧
    (heldRing 0 0 (.count 14)).lock = .held w0 ∧ (heldRing 0 0 (.count 14)).theCall.prov = .count 14 ∧
    1 = (if byteOf (heldRing 0 0 (.count 14)) .genCrc8 = (txSt (heldRing 0 0 (.count 14))).cfg.sync then 2 else 1) ∧
    14 + 1 ≤ (heldRing 0 0 (.count 14)).free ∧ (heldRing 0 0 (.count 15)).free < 15 + 1 := by decide
theorem wit_PoisonSticky : (txSt (heldRing 0 0 .poison)).tx? 0 = some (heldRing 0 0 .poison) ∧
    (heldRing 0 0 .poison).lock = .held w0 ∧ (heldRing 0 0 .poison).theCall.prov = .poison := by decide
theorem wit_Commit : (((ring 0 0).claim w0).writeRaw 0x11).Inv ∧
    (((ring 0 0).claim w0).writeRaw 0x11).lock = .held w0 ∧
    (((ring 0 0).claim w0).writeRaw 0x11).theCall.prov = .count 1 :=
  ⟨((Ring.inv_reset (n := 16) (by decide)).claim w0).writeRaw (by decide) 0x11, by decide, by decide⟩
theorem wit_Discard : (txSt (heldRing 3 1 (.count 4))).tx? 0 = some (heldRing 3 1 (.count 4)) ∧
    (heldRing 3 1 (.count 4)).lock = .held w0 ∧ (heldRing 3 1 (.count 4)).call ≠ none := by decide

theorem oneByte_holds : oneByte.buf.Holds 0 [0x11] := by
  intro k hk
  have : k = 0 := by simpa using hk
  subst this; rfl

theorem wit_ReadRun : (txSt oneByte).tx? 0 = some oneByte ∧ oneByte.buf.Holds 0 [0x11] ∧
    0 + [(0x11 : Byte)].length ≤ oneByte.size ∧ 0 < oneByte.used ∧ 0 + 0 = (oneByte.tail + 0) % oneByte.size :=
  ⟨by decide, oneByte_holds, by decide, by decide, by decide⟩
theorem wit_Advance : (txSt (ring 0 1)).tx? 0 = some (ring 0 1) ∧ (ring 0 1).CursorsIn ∧ 15 ≤ (ring 0 1).used := by
  unfold Ring.CursorsIn; decide
theorem wit_MisuseRefused : (txSt (ring 4 0)).tx? 0 = some (ring 4 0) ∧ (ring 4 0).lock ≠ .held w0 ∧ w0 ≠ .drain 0 ∧
    (ring 4 0).used < 5 ∧ 3 + 2 ≤ (ring 4 0).size ∧
    (∀ j, j < (ring 4 0).used → 3 + 1 ≠ ((ring 4 0).tail + j) % (ring 4 0).size) := by decide
theorem wit_AbsentUnits : State.rx? { txSt (ring 0 0) with ports := [] } 0 = none ∧
    State.tx? { txSt (ring 0 0) with ports := [] } 0 = none ∧
    State.drain? { txSt (ring 0 0) with ports := [] } 0 = none ∧
    Instr.ringPort? (.cbFree w0 0) = some 0 ∧ Instr.rxPort? (.rxReseed 0) = some 0 ∧
    (rxSt midData).rx? 0 = some midData ∧ midData.dataLength ≠ 0 ∧ 0 < (rxSt midData).cfg.rxDataCap ∧
    midData.buf.read 0 = none ∧
    (txSt (ring 1 0)).tx? 0 = some (ring 1 0) ∧ 15 < (ring 1 0).size ∧ (ring 1 0).buf.read 15 = none ∧
    (ring 1 0).size < 15 + 2 ∧ (ring 1 0).buf.read 0 = none ∧ 0 < (ring 1 0).used ∧
    0 + 0 = ((ring 1 0).tail + 0) % (ring 1 0).size := by decide
theorem wit_CursorMoves : busy.tx? 0 = some oneByte ∧ (∃ t, exec (.drainIteration 0) busy = .next t) ∧
    (turnSt w0 Env.quiet [.signal 0] none).sched = w0 :: [] ∧ w0 ≠ .drain 0 ∧
    (∃ t P, step (turnSt w0 Env.quiet [.signal 0] none) = .next t ∧
      (turnSt w0 Env.quiet [.signal 0] none).port? 0 = some P) ∧
    (∃ t, step { txSt (heldRing 3 1 (.count 0)) with sched := [.host] } = .next t) ∧
    (heldRing 3 1 (.count 0)).lock = .held w0 ∧ w0 ≠ Agent.host :=
  ⟨by decide, ⟨_, rfl⟩, by decide, by decide, ⟨_, _, rfl, rfl⟩, ⟨_, rfl⟩, by decide, by decide⟩

/-- Another agent's operation is refused: a byte step by a writer, also inside a handler, an advance and a drain line
by the host, a writer's advance in the drain task's name (R71, R73, R285). -/
theorem test_foreign_refused : step (turnSt w0 Env.quiet [.rxStep 0 0x11] (some 2)) = .refused .notOwner ∧
    step (turnSt .host Env.quiet [.drainIteration 0] none) = .refused .notOwner ∧
    step (turnSt (.decode 0) Env.quiet [.drainWake 0] none) = .refused .notOwner ∧
    step (turnSt w0 Env.quiet [.cbAdvance (.drain 0) 0 1] none) = .refused .notOwner := ⟨rfl, rfl, rfl, rfl⟩
theorem wit_GenHeaderOnly : cfg.wf = true ∧ (txSt (heldRing 9 0 (.count 0))).tx? 0 = some (heldRing 9 0 (.count 0)) ∧
    (heldRing 9 0 (.count 0)).CursorsIn ∧ (heldRing 9 0 (.count 0)).lock = .held w0 ∧
    (heldRing 9 0 (.count 0)).free = 6 := by
  unfold Ring.CursorsIn; decide
theorem wit_GenGeneric : (txSt (heldRing 7 0 (.count 0))).tx? 0 = some (heldRing 7 0 (.count 0)) ∧
    (heldRing 7 0 (.count 0)).CursorsIn ∧ (heldRing 7 0 (.count 0)).lock = .held w0 ∧
    [(0xA6 : Byte)].length ≤ 255 ∧ [(0xA6 : Byte)].length + 6 ≤ (heldRing 7 0 (.count 0)).free ∧
    (wire cfg.sync (frameFor cfg 0x03 [0xA6])).length = (heldRing 7 0 (.count 0)).free := by
  unfold Ring.CursorsIn; decide +kernel
theorem wit_GenFails : (txSt (heldRing 8 0 (.count 0))).tx? 0 = some (heldRing 8 0 (.count 0)) ∧
    (heldRing 8 0 (.count 0)).CursorsIn ∧ (heldRing 8 0 (.count 0)).lock = .held w0 ∧
    255 < (List.replicate 256 (0 : Byte)).length ∧ (heldRing 8 0 (.count 0)).free < [(0 : Byte), 0].length + 6 ∧
    [(0xA6 : Byte)].length + 6 ≤ (heldRing 8 0 (.count 0)).free ∧
    (heldRing 8 0 (.count 0)).free < (wire cfg.sync (frameFor cfg 0x03 [0xA6])).length ∧
    (txSt (heldRing 10 0 (.count 0))).tx? 0 = some (heldRing 10 0 (.count 0)) ∧
    (heldRing 10 0 (.count 0)).CursorsIn ∧ (heldRing 10 0 (.count 0)).free < 6 := by
  unfold Ring.CursorsIn; decide +kernel
theorem wit_GenLinesRefine : cfg.wf = true ∧ (txSt (heldRing 9 0 .poison)).tx? 0 = some (heldRing 9 0 .poison) ∧
    (heldRing 9 0 .poison).CursorsIn ∧ (heldRing 9 0 .poison).lock = .held w0 ∧ 6 ≤ (heldRing 9 0 .poison).free := by
  unfold Ring.CursorsIn; decide
theorem wit_SendNotStarted : State.tx? { txSt (ring 0 0) with ports := [] } 4 = none ∧
    (txSt (ring 0 0)).tx? 0 = some (ring 0 0) ∧ lookupGen cfg (cmdIdOf 0x05).toNat = none ∧
    (txSt (heldRing 0 0 (.count 0))).tx? 0 = some (heldRing 0 0 (.count 0)) ∧
    lookupGen cfg (cmdIdOf 0x91).toNat = some .caller ∧ (heldRing 0 0 (.count 0)).lock = .held w0 := by decide
theorem wit_SendFrame : cfg.wf = true ∧ (txSt (ring 9 0)).tx? 0 = some (ring 9 0) ∧ (ring 9 0).CursorsIn ∧
    (ring 9 0).lock = .free ∧ lookupGen cfg (cmdIdOf 0x02).toNat = some .headerOnly ∧
    ([] : List Byte).length + 6 ≤ (ring 9 0).free ∧ (wire cfg.sync (frameFor cfg 0x02 [])).length ≤ (ring 9 0).free := by
  unfold Ring.CursorsIn; decide +kernel
theorem wit_SendFrame_fails : (txSt (ring 8 0)).tx? 0 = some (ring 8 0) ∧ (ring 8 0).CursorsIn ∧
    (ring 8 0).lock = .free ∧ lookupGen cfg (cmdIdOf 0x03).toNat = some .caller ∧
    (ring 8 0).free < [(0 : Byte), 0].length + 6 ∧
    (ring 8 0).free < (wire cfg.sync (frameFor cfg 0x03 [0xA6])).length ∧
    255 < (List.replicate 256 (0 : Byte)).length := by
  unfold Ring.CursorsIn; decide +kernel
theorem wit_Signal : (txSt (ring 0 0)).port? 0 = some (port (rx .waitSync) (ring 0 0) Drain.reset) ∧
    (port (rx .waitSync) (ring 0 0) Drain.reset).drain.isSome = true ∧
    State.drain? { txSt (ring 0 0) with ports := [] } 0 = none := by decide
theorem wit_Wake : (one { port (rx .waitSync) (ring 0 0) Drain.reset with pending := true }).port? 0 =
      some { port (rx .waitSync) (ring 0 0) Drain.reset with pending := true } ∧ Drain.reset.state = .blocked ∧
    (txSt (ring 0 0)).port? 0 = some (port (rx .waitSync) (ring 0 0) Drain.reset) ∧
    (port (rx .waitSync) (ring 0 0) Drain.reset).pending = false ∧
    busy.port? 0 = some (port midData oneByte { state := .draining, line := .sendRun [0x11] }) := by decide
/-- Port 0 with this ring, its drain task at this line, and answers to come. -/
def lineAt (T : Machine.Ring) (l : DrainLine) : Port :=
  { port (rx .waitSync) T { state := .draining, line := l } with
    env := { Env.quiet with active := [false], sends := [true] } }

theorem wit_DrainLines_test : (one (lineAt (ring 0 0) .testEmpty)).port? 0 = some (lineAt (ring 0 0) .testEmpty) ∧
    (lineAt (ring 0 0) .testEmpty).drain = some { state := .draining, line := .testEmpty } ∧
    (lineAt (ring 0 0) .testEmpty).tx = some (ring 0 0) ∧ (ring 0 0).head = (ring 0 0).tail ∧
    (one (lineAt oneByte .testEmpty)).port? 0 = some (lineAt oneByte .testEmpty) ∧ oneByte.head ≠ oneByte.tail := by
  decide
theorem wit_DrainLines_query : (one (lineAt oneByte .queryActive)).port? 0 = some (lineAt oneByte .queryActive) ∧
    (lineAt oneByte .queryActive).drain = some { state := .draining, line := .queryActive } ∧
    (lineAt oneByte .queryActive).env.active = false :: [] := by decide
theorem wit_DrainLines_read : (one (lineAt oneByte .readRun)).port? 0 = some (lineAt oneByte .readRun) ∧
    (lineAt oneByte .readRun).drain = some { state := .draining, line := .readRun } ∧ oneByte.CursorsIn ∧
    oneByte.buf.Holds oneByte.tail [0x11] ∧
    [(0x11 : Byte)].length = (if oneByte.tail ≤ oneByte.head then oneByte.head - oneByte.tail else
      oneByte.size - oneByte.tail) :=
  ⟨by decide, by decide, ⟨by decide, by decide⟩, oneByte_holds, by decide⟩
theorem wit_DrainLines_send : (one (lineAt oneByte (.sendRun [0x11]))).port? 0 = some (lineAt oneByte (.sendRun [0x11])) ∧
    (lineAt oneByte (.sendRun [0x11])).env.sends = true :: [] := by decide
theorem wit_DrainLines_settle :
    (one (lineAt oneByte (.settle [0x11] true))).port? 0 = some (lineAt oneByte (.settle [0x11] true)) ∧
    0 < [(0x11 : Byte)].length ∧ [(0x11 : Byte)].length ≤ oneByte.used ∧
    (one (lineAt oneByte (.settle [0x11] false))).port? 0 = some (lineAt oneByte (.settle [0x11] false)) := by decide
theorem wit_DrainAborts : busy.port? 0 = some (port midData oneByte { state := .draining, line := .sendRun [0x11] }) := by
  decide
/-- A drain task that has just woken over a wrapped ring, with an active transport. -/
def wokenPort : Port :=
  { port (rx .waitSync) wrapped { state := .draining, line := .testEmpty } with
    env := { Env.quiet with active := [true, true], sends := [true, true] } }

theorem wit_DrainEmpties : (one wokenPort).port? 0 = some wokenPort ∧ wokenPort.tx = some wrapped ∧
    wokenPort.drain = some { state := .draining, line := .testEmpty } ∧ wrapped.Inv ∧ wrapped.used = 2 ∧
    wokenPort.env.active = true :: true :: [] ∧ wokenPort.env.sends = true :: true :: [] :=
  ⟨by decide, by decide, by decide, wrapped_inv, by decide, by decide, by decide⟩
theorem wit_Lookups : cfg.tableLen ≤ 18 ∧ 17 < cfg.tableLen ∧ cfg.decTable[17]? = some (some 17) ∧
    cfg.decTable[9]? = some none ∧ cfg.genTable[1]? = some (some .headerOnly) := by decide

end Sys2Proof.Tests
end

/-! SUPPORT. The statements of `spec/00_scope.md`. The configuration is constant: what the build fixed of a state is
read off as a `Build` again, each update of a state keeps it, each instruction is made of such updates, and so no step
changes it. A turn of an agent that has operations to execute is the first of them. -/

namespace Sys2Proof.Machine

/-! ### What the build fixed of a state -/

/-- What the build fixed of a port record: which units it has, the size of its ring, the timeout tokens. -/
def Port.built (P : Port) : PortCfg where
  hasRx := P.rx.isSome
  cbSize := P.tx.map Ring.size
  hasDrain := P.drain.isSome
  rxTimeout := P.rxTimeout
  txTimeout := P.txTimeout

/-- The build a state is one of. -/
def State.build (s : State) : Build := { cfg := s.cfg, ports := s.ports.map Port.built }

/-- Initialisation makes a state of the build it is given (R300). -/
theorem State.resetOf_build (b : Build) : (State.resetOf b).build = b := by
  have hport : ∀ p c, (Port.reset p c).built = c := by
    rintro p ⟨hasRx, cbSize, hasDrain, rxT, txT⟩
    cases hasRx <;> cases cbSize <;> cases hasDrain <;> rfl
  have hports : (b.ports.mapIdx Port.reset).map Port.built = b.ports := by
    apply List.ext_getElem?
    intro p
    simp [hport, Function.comp_def]
  simp only [State.build, State.resetOf, hports]

section build
variable {s t : State} {p : PortId} {who : Agent}

/-- A state of the same build has the same ports, each with the same units and tokens. -/
theorem State.built_of_build_eq {P : Port} (h : t.build = s.build) (hP : s.port? p = some P) :
    ∃ Q, t.port? p = some Q ∧ Q.built = P.built := by
  have hp : (t.port? p).map Port.built = (s.port? p).map Port.built := by
    simpa [State.build, State.port?] using congrArg (fun b => b.ports[p]?) h
  simpa [hP] using hp

theorem State.build_congr (hc : t.cfg = s.cfg) (hp : t.ports = s.ports) : t.build = s.build := by
  simp [State.build, hc, hp]

/-! ### The updates of a state keep its build -/

/-- A change of a port record that keeps what the build fixed of it. -/
theorem State.modifyPort_build {f : Port → Port} (hf : ∀ P, s.port? p = some P → (f P).built = P.built) :
    (s.modifyPort p f).build = s.build := by
  have hports : (s.ports.modify p f).map Port.built = s.ports.map Port.built := by
    apply List.ext_getElem?
    intro q
    rw [List.getElem?_map, List.getElem?_map, List.getElem?_modify]
    split
    · next hq =>
      subst hq
      cases hP : s.ports[p]? with
      | none => rfl
      | some P => simp [hf P hP]
    · simp
  simp only [State.build, State.modifyPort, hports]

/-- Registers are written where the port has a receiver. -/
@[simp] theorem State.setRx_build {r : Rx} (h : (s.rx? p).isSome = true) : (s.setRx p r).build = s.build :=
  State.modifyPort_build fun P hP => by simp_all [State.rx?, Port.built]

/-- A ring is written where the port has one of the same size. -/
theorem State.setTx_build {T T' : Ring} (hT : s.tx? p = some T) (hs : T'.size = T.size) :
    (s.setTx p T').build = s.build :=
  State.modifyPort_build fun P hP => by simp_all [State.tx?, Port.built]

/-- A drain task is written where the port has one. -/
@[simp] theorem State.setDrain_build {d : Drain} (h : (s.drain? p).isSome = true) : (s.setDrain p d).build = s.build :=
  State.modifyPort_build fun P hP => by simp_all [State.drain?, Port.built]

@[simp] theorem State.setPending_build (v : Bool) : (s.setPending p v).build = s.build :=
  State.modifyPort_build fun _ _ => rfl
@[simp] theorem State.setEnv_build (e : Env) : (s.setEnv p e).build = s.build :=
  State.modifyPort_build fun _ _ => rfl
@[simp] theorem State.emit_build (es : List Event) : (s.emit p es).build = s.build :=
  State.modifyPort_build fun _ _ => rfl
@[simp] theorem State.boundary_build (cs : List BoundaryCall) : (s.boundary p cs).build = s.build :=
  State.modifyPort_build fun _ _ => rfl
@[simp] theorem State.takeInput_build (rest : List RxAnswer) : (s.takeInput p rest).build = s.build := by
  simp [State.takeInput]
@[simp] theorem State.setRet_build (v : Ret) : (s.setRet who v).build = s.build := rfl
@[simp] theorem State.setTodo_build (is : List Instr) : (s.setTodo who is).build = s.build := rfl
@[simp] theorem State.pushWork_build (is : List Instr) : (s.pushWork who is).build = s.build :=
  State.build_congr (by simp) (by simp)
@[simp] theorem State.turned_build (rest : List Agent) : (s.turned rest).build = s.build := rfl
@[simp] theorem State.payloadTaken_build (g : Generator) : (s.payloadTaken g).build = s.build :=
  State.build_congr (by simp) (by simp)

/-! ### No ring operation changes the size of the ring -/

@[simp] theorem Ring.writeRaw_size (T : Ring) (b : Byte) : (T.writeRaw b).size = T.size := by
  rcases Ring.writeRaw_cases T b with ⟨he, -⟩ | ⟨n, -, -, he⟩ <;> rw [he] <;> rfl

@[simp] theorem Ring.writeEsc_size (c : Cfg) (T : Ring) (b : Byte) : (T.writeEsc c b).size = T.size := by
  rcases Ring.writeEsc_cases c T b with ⟨he, -⟩ | ⟨n, -, -, -, he⟩ | ⟨n, -, -, -, he⟩ <;> rw [he] <;> rfl

@[simp] theorem Ring.commit_size (T : Ring) : T.commit.1.size = T.size := by
  rcases T.commit_cases with ⟨-, he⟩ | ⟨n, -, he⟩ <;> rw [he] <;> rfl

@[simp] theorem Ring.finish_size (T : Ring) : T.finish.1.size = T.size := by
  unfold Ring.finish
  split <;> exact T.commit_size

@[simp] theorem Ring.emitBoth_size (c : Cfg) (b : Byte) (T : Ring) : (Ring.emitBoth c b T).size = T.size := by
  simp [Ring.emitBoth]

@[simp] theorem Ring.emitData_size (c : Cfg) (ds : List Byte) (T : Ring) : (T.emitData c ds).size = T.size := by
  induction ds generalizing T with
  | nil => rfl
  | cons d ds ih => simp [Ring.emitData, ih]

@[simp] theorem Ring.genHeaderOnly_size (c : Cfg) (cmd : Byte) (T : Ring) :
    (T.genHeaderOnly c cmd).1.size = T.size := by
  unfold Ring.genHeaderOnly
  split <;> simp

@[simp] theorem Ring.genGeneric_size (c : Cfg) (cmd : Byte) (data : List Byte) (T : Ring) :
    (T.genGeneric c cmd data).1.size = T.size := by
  unfold Ring.genGeneric
  split
  · rfl
  · split
    · exact T.genHeaderOnly_size c cmd
    · split <;> simp

@[simp] theorem Ring.generate_size (c : Cfg) (cmd : Byte) (payload : Option (List Byte)) (T : Ring) :
    (T.generate c cmd payload).1.size = T.size := by
  cases payload with
  | none => exact T.genHeaderOnly_size c cmd
  | some data => exact T.genGeneric_size c cmd data

/-! ### The shared operations keep the build -/

theorem State.decoder_build {f : Cfg → Rx → Except Fault RxOut} (h : s.decoder p f = .next t) :
    t.build = s.build := by
  obtain ⟨r, o, hr, -, rfl⟩ := State.decoder_next h
  simp [hr]

/-- An operation on a held ring that keeps its size and returns a value. -/
theorem State.withHeldRing_build {g : Ring → Ring} {v : Ring → Ret} (hg : ∀ T, (g T).size = T.size)
    (h : s.withHeldRing who p (fun T => .next ((s.setTx p (g T)).setRet who (v T))) = .next t) :
    t.build = s.build := by
  obtain ⟨T, hT, -, hk⟩ := State.withHeldRing_next h
  cases hk
  exact State.setTx_build hT (hg T)

/-- A query of the cursors writes its caller's value only. -/
theorem State.cursorQuery_build {v : Ring → Ret}
    (h : (s.withRing p fun T => if T.mayReadCursors who p then .next (s.setRet who (v T)) else .refused .notOwner) =
      .next t) : t.build = s.build := by
  obtain ⟨T, -, hk⟩ := State.withRing_next h
  split at hk <;> cases hk
  rfl

theorem State.generateHeld_build {cmd : Byte} {payload : Option (List Byte)}
    (h : s.generateHeld who p cmd payload = .next t) : t.build = s.build := by
  obtain ⟨T, hT, -, hk⟩ := State.withHeldRing_next h
  cases hk
  exact (State.emit_build _).trans (State.setTx_build hT (T.generate_size s.cfg cmd payload))

theorem State.generateAndSend_build {self : Instr} {cmd : Byte} {data : List Byte}
    (h : s.generateAndSend self who cmd p data = .next t) : t.build = s.build := by
  rcases s.generateAndSend_cases self who cmd p data with ⟨-, he⟩ | ⟨T, hT, ⟨-, he⟩ | ⟨g, -, ⟨x, -, he⟩ | ⟨-, he⟩⟩⟩ <;>
    rw [he] at h <;> cases h
  · rfl
  · rfl
  · exact State.pushWork_build _
  · have hT' : (s.payloadTaken g).tx? p = some T := by
      rw [← hT, State.tx?, State.tx?, State.port?_of_ports (s.payloadTaken_ports g)]
    simp [State.generateAndRelease, State.setTx_build hT']

/-! ### The instructions keep the build -/

theorem execCrc8Step_build {form : Crc8Form} (h : execCrc8Step who form s = .next t) : t.build = s.build := by
  cases form with
  | value b acc => cases h; rfl
  | gen p src => exact State.withHeldRing_build (fun T => T.stepCrc8_size s.cfg (byteOf T src)) h

theorem execCrc16Step_build {form : Crc16Form} (h : execCrc16Step who form s = .next t) : t.build = s.build := by
  cases form with
  | value b acc => cases h; rfl
  | gen p src => exact State.withHeldRing_build (fun T => T.stepCrc16_size s.cfg (byteOf T src)) h

theorem execCbClaim_build (h : execCbClaim who p s = .next t) : t.build = s.build := by
  obtain ⟨T, hT, hk⟩ := State.withRing_next h
  split at hk <;> cases hk
  · exact State.setTx_build hT rfl
  · exact State.pushWork_build _

theorem execCbAdvance_build {n : Nat} (h : execCbAdvance who p n s = .next t) : t.build = s.build := by
  obtain ⟨T, hT, hk⟩ := State.withRing_next h
  split at hk
  · split at hk <;> cases hk
    exact State.setTx_build hT rfl
  · cases hk

theorem execSignal_build (h : execSignal p s = .next t) : t.build = s.build := by
  unfold execSignal at h
  split at h <;> cases h
  · rfl
  · simp

theorem execDrainWake_build (h : execDrainWake p s = .next t) : t.build = s.build := by
  obtain ⟨d, hd, hk⟩ := State.withDrain_next h
  split at hk
  · split at hk <;> cases hk
    · simp [hd]
    · rfl
  · cases hk; rfl

theorem State.abortDrain_build (hd : (s.drain? p).isSome = true) (cause : DrainCause) :
    (s.abortDrain p cause).build = s.build := by
  simp [State.abortDrain, hd]

theorem State.drainTest_build (hd : (s.drain? p).isSome = true) (T : Ring) : (s.drainTest p T).build = s.build := by
  unfold State.drainTest
  split <;> exact State.setDrain_build hd

theorem State.drainQuery_build (hd : (s.drain? p).isSome = true) : (s.drainQuery p).build = s.build := by
  unfold State.drainQuery
  split
  · rfl
  · split
    · simp [hd]
    · rw [State.abortDrain_build (by simpa using hd)]; simp

theorem State.drainRead_build {T : Ring} (hd : (s.drain? p).isSome = true) (h : s.drainRead p T = .next t) :
    t.build = s.build := by
  unfold State.drainRead at h
  split at h <;> cases h
  exact State.setDrain_build hd

theorem State.drainSend_build (hd : (s.drain? p).isSome = true) (bs : List Byte) :
    (s.drainSend p bs).build = s.build := by
  unfold State.drainSend
  split <;> simp [hd]

theorem State.drainSettle_build {T : Ring} {bs : List Byte} {ok : Bool} (hd : (s.drain? p).isSome = true)
    (hT : s.tx? p = some T) (h : s.drainSettle p T bs ok = .next t) : t.build = s.build := by
  unfold State.drainSettle at h
  split at h
  · split at h <;> cases h
    have hadv : (s.setTx p (T.advance bs.length)).build = s.build := State.setTx_build hT rfl
    simp [hd, hadv]
  · cases h
    exact State.abortDrain_build hd _

/-- Each numbered line of the drain loop keeps the build (R249). -/
theorem execDrainIteration_build (h : execDrainIteration p s = .next t) : t.build = s.build := by
  obtain ⟨d, hd, hr⟩ := State.withDrain_next h
  obtain ⟨T, hT, hk⟩ := State.withRing_next hr
  have hd : (s.drain? p).isSome = true := by rw [hd]; rfl
  split at hk
  · cases hk; rfl
  · split at hk
    · cases hk; exact State.drainTest_build hd T
    · cases hk; exact State.drainQuery_build hd
    · exact State.drainRead_build hd hk
    · cases hk; exact State.drainSend_build hd _
    · exact State.drainSettle_build hd hT hk

theorem execDrainAbort_build {cause : DrainCause} (h : execDrainAbort p cause s = .next t) : t.build = s.build := by
  obtain ⟨d, hd, hk⟩ := State.withDrain_next h
  split at hk <;> cases hk
  · rfl
  · exact State.abortDrain_build (by rw [hd]; rfl) cause

theorem execDecodeTaskIteration_build (h : execDecodeTaskIteration p s = .next t) : t.build = s.build := by
  unfold execDecodeTaskIteration at h
  split at h
  · cases h
  · split at h
    · cases h; rfl
    · cases h; exact State.takeInput_build _
    · exact (State.decoder_build h).trans (State.takeInput_build _)

/-- A `CMD` instruction is the arrival of its byte (R92, R185). -/
theorem exec_of_cmdOperands {i : Instr} {ack : Bool} {id : BitVec 7} (h : i.cmdOperands = some (p, ack, id))
    (s : State) : exec i s = cmdArrives id p ack s := by
  cases i <;> simp only [Instr.cmdOperands, Option.some.injEq, Prod.mk.injEq, reduceCtorEq] at h <;>
    obtain ⟨rfl, rfl, rfl⟩ := h <;> rfl

/-- The instructions of a port's receiver are decoder operations on its registers (R71). -/
theorem exec_of_rxPort? {i : Instr} (h : i.rxPort? = some p) :
    ∃ f : Cfg → Rx → Except Fault RxOut, ∀ s, exec i s = s.decoder p f := by
  cases i with
  | sync => cases h; exact ⟨fun c r => rxStep c c.sync r, fun _ => rfl⟩
  | rxByteSyncMidframe => cases h; exact ⟨fun c r => rxStep c c.sync r, fun _ => rfl⟩
  | frameHeaderOnly _ ack id crc8 =>
    cases h
    exact ⟨fun c r => rxFeed c (wire c.sync (headerBytes c.sync (cmdByte ack id) 0 crc8)) r, fun _ => rfl⟩
  | frameWithData _ ack id crc8 data crc16 =>
    cases h
    exact ⟨fun c r => rxFeed c (wire c.sync (dataFrameBytes c.sync (cmdByte ack id) crc8 data crc16)) r, fun _ => rfl⟩
  | rxStep _ b => cases h; exact ⟨fun c r => rxStep c b r, fun _ => rfl⟩
  | rxWaitSync _ b => cases h; exact ⟨fun c r => onWaitSync c b r, fun _ => rfl⟩
  | rxReseed => cases h; exact ⟨fun c r => .ok (.regs (reseed c r)), fun _ => rfl⟩
  | rxRxCmd _ b => cases h; exact ⟨fun c r => onRxCmd c b r, fun _ => rfl⟩
  | rxRxSize _ b => cases h; exact ⟨fun c r => onRxSize c b r, fun _ => rfl⟩
  | rxRxCrc8 _ b => cases h; exact ⟨fun c r => onRxCrc8 c b r, fun _ => rfl⟩
  | rxFail _ cause => cases h; exact ⟨fun c r => .ok (takeFramingError c cause r), fun _ => rfl⟩
  | rxComplete => cases h; exact ⟨complete, fun _ => rfl⟩
  | rxRxData _ b => cases h; exact ⟨fun c r => onRxData c b r, fun _ => rfl⟩
  | rxRxCrc16Hi _ b => cases h; exact ⟨fun c r => onRxCrc16Hi c b r, fun _ => rfl⟩
  | rxRxCrc16Lo _ b => cases h; exact ⟨fun c r => onRxCrc16Lo c b r, fun _ => rfl⟩
  | rxEscapeConfirmed => cases h; exact ⟨onEscapeConfirmed, fun _ => rfl⟩
  | rxAbandonRestart _ b => cases h; exact ⟨fun c r => onAbandonRestart c b r, fun _ => rfl⟩
  | _ =>
    simp only [Instr.rxPort?] at h
    obtain ⟨⟨q, ack, id⟩, hc, rfl⟩ := Option.map_eq_some_iff.mp h
    exact ⟨fun c r => rxStep c (cmdByte ack id) r, exec_of_cmdOperands hc⟩

/-- No instruction changes the build: those of a receiver as decoder operations, the others one by one. -/
theorem exec_build {i : Instr} (h : exec i s = .next t) : t.build = s.build := by
  cases hp : i.rxPort? with
  | some p =>
    obtain ⟨f, hf⟩ := exec_of_rxPort? hp
    exact State.decoder_build (hf s ▸ h)
  | none =>
    cases i with
    | crc8Step who form => exact execCrc8Step_build h
    | crc16Step who form => exact execCrc16Step_build h
    | cbClaim who p => exact execCbClaim_build h
    | cbRelease who p => exact State.withHeldRing_build Ring.release_size h
    | cbFree who p => exact State.cursorQuery_build h
    | cbWriteRaw who p src => exact State.withHeldRing_build (fun T => T.writeRaw_size (byteOf T src)) h
    | cbWriteEsc who p src => exact State.withHeldRing_build (fun T => T.writeEsc_size s.cfg (byteOf T src)) h
    | cbCommit who p => exact State.withHeldRing_build Ring.commit_size h
    | cbDiscard who p => exact State.withHeldRing_build Ring.dropCall_size h
    | cbIsEmpty who p => exact State.cursorQuery_build h
    | cbReadableRun who p => exact State.cursorQuery_build h
    | cbReadRun who p start len =>
      obtain ⟨T, bs, -, -, -, -, rfl⟩ := execCbReadRun_next h
      rfl
    | cbAdvance who p n => exact execCbAdvance_build h
    | genHeaderOnly who p cmd => exact State.generateHeld_build h
    | genGeneric who p cmd data => exact State.generateHeld_build h
    | rxSendAck p => exact State.generateAndSend_build h
    | lookupDec who id => cases h; rfl
    | lookupGen who id => cases h; rfl
    | generateAndSend who cmd p data => exact State.generateAndSend_build h
    | signal p => exact execSignal_build h
    | drainWake p => exact execDrainWake_build h
    | drainIteration p => exact execDrainIteration_build h
    | drainAbort p cause => exact execDrainAbort_build h
    | decodeTaskIteration p => exact execDecodeTaskIteration_build h
    | _ => cases hp

/-! ### No step changes the build -/

/-- The state in which a turn executes its instruction is one of the same build. -/
theorem FetchCases.run_build {i : Instr} (h : FetchCases who s (.run i t)) : t.build = s.build := by
  cases h with
  | work => rfl
  | byte => exact State.takeInput_build _
  | round => rfl
  | wake => rfl
  | line => rfl

/-- A handler's return leaves a state of the same build. -/
theorem FetchCases.moved_build (h : FetchCases who s (.moved t)) : t.build = s.build := by
  cases h with
  | returned p r replies rest ha hr hs => simp [hr]

/-- The state after a step is one of the same build. -/
theorem step_build (h : step s = .next t) : t.build = s.build := by
  rcases step_cases s with ⟨-, he⟩ | ⟨a, rest, -, x, hx, he⟩ <;> rw [he] at h
  · cases h; rfl
  · cases x with
    | idle => cases h; rfl
    | moved u => cases h; exact hx.moved_build
    | run i u => exact (exec_build h).trans hx.run_build
    | misuse => cases h

end build

/-- Settles O60: no step changes the build, which holds the configuration, and for each port its units and tokens. -/
theorem configurationConstant : Obligations.ConfigurationConstant := by
  intro s t h
  have hb := step_build h
  refine ⟨congrArg Build.cfg hb, by simpa [State.build] using congrArg (fun b => b.ports.length) hb, ?_⟩
  intro p P hP
  obtain ⟨Q, hQ, hQP⟩ := State.built_of_build_eq hb hP
  refine ⟨Q, hQ, congrArg PortCfg.rxTimeout hQP, congrArg PortCfg.txTimeout hQP, congrArg PortCfg.hasRx hQP, ?_,
    congrArg PortCfg.hasDrain hQP⟩
  simpa [Port.built] using congrArg (fun c => c.cbSize.isSome) hQP

/-! ### A turn executes the first operation of the agent -/

section turn
variable {s : State}

/-- An agent whose unit is there and that is in no handler looks at its own operations first. -/
theorem fetch_eq_fetchWork {a : Agent} (hd : ∀ p, a = .decode p → ∃ r, s.rx? p = some r ∧ r.inHandler = none)
    (hq : ∀ p, a = .drain p → (s.drain? p).isSome = true) : ∃ x, fetch a s = fetchWork a x s := by
  cases a with
  | decode p =>
    obtain ⟨r, hr, hn⟩ := hd p rfl
    exact ⟨fetchByte p r s, by simp only [fetch, fetchDecode, hr, hn]⟩
  | drain p =>
    obtain ⟨d, hd⟩ := Option.isSome_iff_exists.mp (hq p rfl)
    exact ⟨fetchDrainLoop p d s, by simp only [fetch, fetchDrain, hd]⟩
  | writer w => exact ⟨.idle, rfl⟩
  | host => exact ⟨.idle, rfl⟩

theorem fetchWork_cons {a : Agent} {i : Instr} {is : List Instr} (x : Fetched) (h : (s.ctx a).todo = i :: is) :
    fetchWork a x s = if mayExecute a i then .run i (s.setTodo a is) else .misuse := by
  simp only [fetchWork, h]

/-- A turn that comes to the agent's operations executes the first, and refuses it when it is another agent's. -/
theorem turn_of_fetchWork {a : Agent} {x : Fetched} {i : Instr} {is : List Instr} (hf : fetch a s = fetchWork a x s)
    (hw : (s.ctx a).todo = i :: is) :
    turn a s = if mayExecute a i then exec i (s.setTodo a is) else .refused .notOwner := by
  simp only [turn, hf, fetchWork_cons x hw]
  by_cases hm : mayExecute a i = true
  · simp only [if_pos hm]
  · simp only [if_neg hm]

end turn

/-- Settles O5: past the checks of its unit, the agent's turn is its first operation or a refusal. -/
theorem stepRunsOperation : Obligations.StepRunsOperation := by
  intro s a rest i is hs hw hd hq
  obtain ⟨x, hx⟩ := fetch_eq_fetchWork (s := s.turned rest) hd hq
  have hstep : step s = turn a (s.turned rest) := by simp only [step, hs, State.turned]
  rw [hstep]
  exact turn_of_fetchWork hx hw

end Sys2Proof.Machine


/-! SUPPORT. The statement about absent units and unwritten bytes of `spec/10_state.md`. Each operation of a unit
continues with that unit of the port, so it is refused where there is none; a run of reads faults at its first byte
where that byte has no value. -/

namespace Sys2Proof.Machine

section absent
variable {s : State} {p : PortId}

/-! ### Continuing with an absent unit (log 15) -/

theorem State.withRing_none {k : Ring → Result} (h : s.tx? p = none) : s.withRing p k = .refused .noBuffer := by
  simp only [State.withRing, h]

theorem State.withDrain_none {k : Drain → Result} (h : s.drain? p = none) : s.withDrain p k = .refused .noDrain := by
  simp only [State.withDrain, h]

theorem State.decoder_none {f : Cfg → Rx → Except Fault RxOut} (h : s.rx? p = none) :
    s.decoder p f = .refused .noReceiver := by
  simp only [State.decoder, h]

/-- The operations that need a ring continue with the ring of their port (R36). -/
theorem exec_of_ringPort? {i : Instr} (h : i.ringPort? = some p) :
    ∃ k : State → Ring → Result, ∀ s, exec i s = s.withRing p (k s) := by
  cases i with
  | crc8Step who form =>
    cases form with
    | value b acc => cases h
    | gen q src => cases h; exact ⟨_, fun _ => rfl⟩
  | crc16Step who form =>
    cases form with
    | value b acc => cases h
    | gen q src => cases h; exact ⟨_, fun _ => rfl⟩
  | cbClaim | cbRelease | cbFree | cbWriteRaw | cbWriteEsc | cbCommit | cbDiscard | cbIsEmpty | cbReadableRun
  | cbReadRun | cbAdvance | genHeaderOnly | genGeneric => cases h; exact ⟨_, fun _ => rfl⟩
  | _ => cases h

theorem exec_refused_of_no_receiver {i : Instr} (hi : i.rxPort? = some p) (h : s.rx? p = none) :
    exec i s = .refused .noReceiver := by
  obtain ⟨f, hf⟩ := exec_of_rxPort? hi
  rw [hf, State.decoder_none h]

theorem exec_decodeTaskIteration_refused (h : s.rx? p = none) :
    exec (.decodeTaskIteration p) s = .refused .noReceiver := by
  show execDecodeTaskIteration p s = _
  simp only [execDecodeTaskIteration, h]

theorem exec_refused_of_no_ring {i : Instr} (hi : i.ringPort? = some p) (h : s.tx? p = none) :
    exec i s = .refused .noBuffer := by
  obtain ⟨k, hk⟩ := exec_of_ringPort? hi
  rw [hk, State.withRing_none h]

/-- The wake, the next line and the abort continue with the drain task of their port (R41, R255). -/
theorem exec_refused_of_no_drain {i : Instr} {cause : DrainCause}
    (hi : i = .drainWake p ∨ i = .drainIteration p ∨ i = .drainAbort p cause) (h : s.drain? p = none) :
    exec i s = .refused .noDrain := by
  rcases hi with rfl | rfl | rfl <;> exact State.withDrain_none h

/-! ### Reading a byte that nothing has written (U5) -/

/-- A run of reads faults at its first byte, with its index, where that byte has no value. -/
theorem Mem.loadRun_unwritten {sp : Space} {size start n : Nat} {m : Mem} (hs : start < size) (hn : 0 < n)
    (h : m.read start = none) : m.loadRun sp size start n = .error (.unwrittenByte sp start) := by
  have hload : m.load sp size start = .error (.unwrittenByte sp start) := by simp only [Mem.load, if_pos hs, h]
  cases n with
  | zero => cases hn
  | succ n => simp only [Mem.loadRun, hload]

/-- A decoder operation that faults stops the machine. -/
theorem State.decoder_fault {f : Cfg → Rx → Except Fault RxOut} {r : Rx} {e : Fault} (h : s.rx? p = some r)
    (he : f s.cfg r = .error e) : s.decoder p f = .fault e := by
  simp only [State.decoder, h, he]

/-- The success exit of a frame with data reads `RXBUF` from its first byte on (R190, log 24). -/
theorem complete_unwritten {c : Cfg} {r : Rx} (hl : r.dataLength ≠ 0) (hc : 0 < c.rxDataCap)
    (h : r.buf.read 0 = none) : complete c r = .error (.unwrittenByte (.rxbuf r.port) 0) := by
  have hn : 0 < r.dataLength.toNat := Nat.pos_of_ne_zero fun h0 => hl (BitVec.eq_of_toNat_eq h0)
  simp only [complete, Mem.loadRun_unwritten hc hn h]

/-- The drain task's read of a run that is not refused: it is of committed slots, or past the end of the array
(R142, log 34). -/
theorem exec_cbReadRun_fault {T : Ring} {start len : Nat} {e : Fault} (hT : s.tx? p = some T)
    (hc : start + len ≤ T.size → T.isCommittedRun start len = true) (he : T.readRun p start len = .error e) :
    exec (.cbReadRun (.drain p) p start len) s = .fault e := by
  have hallowed : ¬(start + len ≤ T.size ∧ T.isCommittedRun start len = false) := by
    rintro ⟨hle, hf⟩
    rw [hc hle] at hf
    cases hf
  show execCbReadRun (.drain p) p start len s = _
  rw [execCbReadRun, State.withRing_eq hT, if_pos rfl, if_neg hallowed]
  simp only [he]

end absent

/-- Settles O41: an operation continues with its unit, and a run of reads faults at a first byte without a value. -/
theorem absentUnits : Obligations.AbsentUnits := by
  intro s
  refine ⟨fun i p => exec_refused_of_no_receiver, fun p => exec_decodeTaskIteration_refused,
    fun i p => exec_refused_of_no_ring, fun p cause i => exec_refused_of_no_drain, ?completion, ?run⟩
  case completion =>
    intro p r hr hl hc h
    exact State.decoder_fault hr (complete_unwritten hl hc h)
  case run =>
    intro p T start len hT hs hn h hrun
    exact exec_cbReadRun_fault hT (fun hle => (Ring.isCommittedRun_iff hle).mpr (hrun hle))
      (Mem.loadRun_unwritten hs hn h)

end Sys2Proof.Machine


/-! SUPPORT. The statement about the receiver's ownership of `spec/20_memory.md`. An instruction that is not one of the
decoder's writes rings, drain tasks, signals, answers and records only, none of which is a receiver; one of the
decoder's writes its own port's receiver, and only DecodeTask(p) may execute it. -/

namespace Sys2Proof.Machine

section receivers
variable {s t : State} {p q : PortId} {who : Agent}

/-! ### The other updates leave the receivers -/

@[simp] theorem State.waitAt_rx? (i : Instr) : (s.waitAt who i).rx? q = s.rx? q :=
  s.pushWork_rx? who [i] q

@[simp] theorem State.takeInput_rx? (rest : List RxAnswer) : (s.takeInput p rest).rx? q = s.rx? q := by
  simp [State.takeInput]

@[simp] theorem State.payloadTaken_rx? (g : Generator) : (s.payloadTaken g).rx? q = s.rx? q := by
  cases g <;> rfl

@[simp] theorem State.abortDrain_rx? (cause : DrainCause) : (s.abortDrain p cause).rx? q = s.rx? q := by
  simp [State.abortDrain]

/-! ### The shared operations

An operation that continues with a ring or a drain task leaves the receivers when what it continues with does. -/

theorem State.withRing_rx? {k : Ring → Result} (hk : ∀ T u, k T = .next u → u.rx? q = s.rx? q)
    (h : s.withRing p k = .next t) : t.rx? q = s.rx? q := by
  obtain ⟨T, -, hT⟩ := State.withRing_next h
  exact hk T t hT

theorem State.withDrain_rx? {k : Drain → Result} (hk : ∀ d u, k d = .next u → u.rx? q = s.rx? q)
    (h : s.withDrain p k = .next t) : t.rx? q = s.rx? q := by
  obtain ⟨d, -, hd⟩ := State.withDrain_next h
  exact hk d t hd

/-- An operation on a held ring that returns a value. -/
theorem State.withHeldRing_rx? {g : Ring → Ring} {v : Ring → Ret}
    (h : s.withHeldRing who p (fun T => .next ((s.setTx p (g T)).setRet who (v T))) = .next t) :
    t.rx? q = s.rx? q := by
  obtain ⟨T, -, -, hk⟩ := State.withHeldRing_next h
  cases hk
  simp

/-- A query of the cursors writes its caller's value only. -/
theorem State.cursorQuery_rx? {v : Ring → Ret}
    (h : (s.withRing p fun T => if T.mayReadCursors who p then .next (s.setRet who (v T)) else .refused .notOwner) =
      .next t) : t.rx? q = s.rx? q := by
  refine State.withRing_rx? (fun T u hu => ?_) h
  split at hu <;> cases hu
  rfl

theorem State.generateHeld_rx? {cmd : Byte} {payload : Option (List Byte)}
    (h : s.generateHeld who p cmd payload = .next t) : t.rx? q = s.rx? q := by
  obtain ⟨T, -, -, hk⟩ := State.withHeldRing_next h
  cases hk
  simp

theorem State.generateAndSend_rx? {self : Instr} {cmd : Byte} {data : List Byte}
    (h : s.generateAndSend self who cmd p data = .next t) : t.rx? q = s.rx? q := by
  rcases s.generateAndSend_cases self who cmd p data with ⟨-, he⟩ | ⟨T, -, ⟨-, he⟩ | ⟨g, -, ⟨x, -, he⟩ | ⟨-, he⟩⟩⟩ <;>
    rw [he] at h <;> cases h
  · rfl
  · rfl
  · simp
  · simp [State.generateAndRelease]

/-! ### The instructions of the ring, the generator, the signal and the drain -/

theorem execCrc8Step_rx? {form : Crc8Form} (h : execCrc8Step who form s = .next t) : t.rx? q = s.rx? q := by
  cases form with
  | value b acc => cases h; rfl
  | gen p src => exact State.withHeldRing_rx? h

theorem execCrc16Step_rx? {form : Crc16Form} (h : execCrc16Step who form s = .next t) : t.rx? q = s.rx? q := by
  cases form with
  | value b acc => cases h; rfl
  | gen p src => exact State.withHeldRing_rx? h

theorem execCbClaim_rx? (h : execCbClaim who p s = .next t) : t.rx? q = s.rx? q := by
  refine State.withRing_rx? (fun T u hu => ?_) h
  split at hu <;> cases hu <;> simp

theorem execCbReadRun_rx? {start len : Nat} (h : execCbReadRun who p start len s = .next t) :
    t.rx? q = s.rx? q := by
  obtain ⟨T, bs, -, -, -, -, rfl⟩ := execCbReadRun_next h
  rfl

theorem execCbAdvance_rx? {n : Nat} (h : execCbAdvance who p n s = .next t) : t.rx? q = s.rx? q := by
  refine State.withRing_rx? (fun T u hu => ?_) h
  split at hu
  · split at hu <;> cases hu
    simp
  · cases hu

theorem execSignal_rx? (h : execSignal p s = .next t) : t.rx? q = s.rx? q := by
  unfold execSignal at h
  split at h <;> cases h
  · rfl
  · simp

theorem execDrainWake_rx? (h : execDrainWake p s = .next t) : t.rx? q = s.rx? q := by
  refine State.withDrain_rx? (fun d u hu => ?_) h
  split at hu
  · split at hu <;> cases hu
    · simp
    · rfl
  · cases hu; rfl

theorem execDrainAbort_rx? {cause : DrainCause} (h : execDrainAbort p cause s = .next t) : t.rx? q = s.rx? q := by
  refine State.withDrain_rx? (fun d u hu => ?_) h
  split at hu <;> cases hu
  · rfl
  · simp

theorem State.drainTest_rx? (T : Ring) : (s.drainTest p T).rx? q = s.rx? q := by
  unfold State.drainTest
  split <;> simp

theorem State.drainQuery_rx? : (s.drainQuery p).rx? q = s.rx? q := by
  unfold State.drainQuery
  split
  · rfl
  · split <;> simp

theorem State.drainRead_rx? {T : Ring} (h : s.drainRead p T = .next t) : t.rx? q = s.rx? q := by
  unfold State.drainRead at h
  split at h <;> cases h
  simp

theorem State.drainSend_rx? (bs : List Byte) : (s.drainSend p bs).rx? q = s.rx? q := by
  unfold State.drainSend
  split <;> simp

theorem State.drainSettle_rx? {T : Ring} {bs : List Byte} {ok : Bool} (h : s.drainSettle p T bs ok = .next t) :
    t.rx? q = s.rx? q := by
  unfold State.drainSettle at h
  split at h
  · split at h <;> cases h
    simp
  · cases h
    simp

/-- Each numbered line of the drain loop leaves the receivers (R249). -/
theorem execDrainIteration_rx? (h : execDrainIteration p s = .next t) : t.rx? q = s.rx? q := by
  refine State.withDrain_rx? (fun d u hu => State.withRing_rx? (fun T v hv => ?_) hu) h
  split at hv
  · cases hv; rfl
  · split at hv
    · cases hv; exact State.drainTest_rx? T
    · cases hv; exact State.drainQuery_rx?
    · exact State.drainRead_rx? hv
    · cases hv; exact State.drainSend_rx? _
    · exact State.drainSettle_rx? hv

/-- An instruction that is not one of the decoder's leaves every receiver (R203, R316). -/
theorem exec_rx?_of_not_decoder {i : Instr} (hp : i.rxPort? = none) (hround : ∀ p, i ≠ .decodeTaskIteration p)
    (h : exec i s = .next t) : t.rx? q = s.rx? q := by
  cases i with
  | crc8Step who form => exact execCrc8Step_rx? h
  | crc16Step who form => exact execCrc16Step_rx? h
  | cbClaim who p => exact execCbClaim_rx? h
  | cbFree | cbIsEmpty | cbReadableRun => exact State.cursorQuery_rx? h
  | cbRelease | cbWriteRaw | cbWriteEsc | cbCommit | cbDiscard => exact State.withHeldRing_rx? h
  | cbReadRun who p start len => exact execCbReadRun_rx? h
  | cbAdvance who p n => exact execCbAdvance_rx? h
  | genHeaderOnly | genGeneric => exact State.generateHeld_rx? h
  | rxSendAck | generateAndSend => exact State.generateAndSend_rx? h
  | lookupDec | lookupGen => cases h; rfl
  | signal p => exact execSignal_rx? h
  | drainWake p => exact execDrainWake_rx? h
  | drainIteration p => exact execDrainIteration_rx? h
  | drainAbort p cause => exact execDrainAbort_rx? h
  | decodeTaskIteration p => exact absurd rfl (hround p)
  | _ => cases hp

/-! ### The decoder's instructions leave the receivers of other ports -/

theorem State.decoder_rx?_other {f : Cfg → Rx → Except Fault RxOut} (hpq : p ≠ q) (h : s.decoder p f = .next t) :
    t.rx? q = s.rx? q := by
  obtain ⟨r, o, -, -, rfl⟩ := State.decoder_next h
  simp [State.setRx_rx?_other _ _ _ hpq]

theorem execDecodeTaskIteration_rx?_other (hpq : p ≠ q) (h : execDecodeTaskIteration p s = .next t) :
    t.rx? q = s.rx? q := by
  unfold execDecodeTaskIteration at h
  split at h
  · cases h
  · split at h
    · cases h; rfl
    · cases h; simp
    · exact (State.decoder_rx?_other hpq h).trans (State.takeInput_rx? _)

/-! ### The decoder's operations are DecodeTask(p)'s -/

/-- What steps or reads the receiver of port `p`, and the ACK of its frames, is DecodeTask(p)'s (R71, R285). -/
theorem mayExecute_decoder {i : Instr} (h : i.rxPort? = some p ∨ i = .decodeTaskIteration p ∨ i = .rxSendAck p) :
    mayExecute who i = decide (who = .decode p) := by
  rcases h with hi | rfl | rfl
  · exact mayExecute_rx hi
  · rfl
  · rfl

/-- What another agent than DecodeTask(p) may execute leaves the receiver of port `p`. -/
theorem exec_rx?_of_mayExecute {i : Instr} (ha : who ≠ .decode p) (hm : mayExecute who i = true)
    (h : exec i s = .next t) : t.rx? p = s.rx? p := by
  have owner_ne {q : PortId} (hi : i.rxPort? = some q ∨ i = .decodeTaskIteration q ∨ i = .rxSendAck q) : q ≠ p := by
    rintro rfl
    exact ha (of_decide_eq_true (mayExecute_decoder hi ▸ hm))
  cases hp : i.rxPort? with
  | some q =>
    obtain ⟨f, hf⟩ := exec_of_rxPort? hp
    exact State.decoder_rx?_other (owner_ne (.inl hp)) (hf s ▸ h)
  | none =>
    by_cases hround : ∃ q, i = .decodeTaskIteration q
    · obtain ⟨q, rfl⟩ := hround
      exact execDecodeTaskIteration_rx?_other (owner_ne (.inr (.inl rfl))) h
    · exact exec_rx?_of_not_decoder hp (not_exists.mp hround) h

/-! ### A step of another agent leaves the receiver -/

/-- The state in which a turn executes its instruction has the receivers the turn began with. -/
theorem FetchCases.run_rx? {i : Instr} (h : FetchCases who s (.run i t)) : t.rx? q = s.rx? q := by
  cases h with
  | work => rfl
  | byte => exact State.takeInput_rx? _
  | round => rfl
  | wake => rfl
  | line => rfl

/-- A handler returns to its own port's decode task. -/
theorem FetchCases.moved_rx? (ha : who ≠ .decode p) (h : FetchCases who s (.moved t)) : t.rx? p = s.rx? p := by
  cases h with
  | returned q r replies rest hq hr hs =>
    have hqp : q ≠ p := by
      rintro rfl
      exact ha hq
    simp [State.setRx_rx?_other _ _ _ hqp]

/-- A step of another agent than DecodeTask(p) leaves the receiver of port `p` (R71). -/
theorem step_rx?_of_other {rest : List Agent} (hs : s.sched = who :: rest) (ha : who ≠ .decode p)
    (h : step s = .next t) : t.rx? p = s.rx? p := by
  rcases step_cases s with ⟨hnil, -⟩ | ⟨a, rest', ha', x, hx, he⟩
  · rw [hs] at hnil; cases hnil
  · rw [hs] at ha'
    cases ha'
    rw [he] at h
    cases x with
    | idle => cases h; rfl
    | moved u => cases h; exact (hx.moved_rx? ha).trans (s.turned_rx? rest p)
    | run i u => exact (exec_rx?_of_mayExecute ha hx.mayExecute h).trans hx.run_rx?
    | misuse => cases h

end receivers

/-- Settles O27: the other instructions write no receiver, and a turn executes one of the decoder's for DecodeTask(p)
only. -/
theorem receiverOwnership : Obligations.ReceiverOwnership := by
  refine ⟨fun i s t hp hround h q => exec_rx?_of_not_decoder hp hround h,
    fun s t a rest p hs ha h => step_rx?_of_other hs ha h, ?refusal⟩
  case refusal =>
    intro s a rest p i is hs ha hw hd hq hi
    have hm : mayExecute a i = false := (mayExecute_decoder hi).trans (decide_eq_false ha)
    rw [stepRunsOperation s a rest i is hs hw hd hq, hm]
    rfl

end Sys2Proof.Machine

/-! SUPPORT. The statements of `spec/30_encoding.md`. The `CMD` byte and the octets of a word are their fields put
together and taken apart again, `splitData` is the inverse of putting a payload before its `CRC16`, and the `CMD`
instructions are the entries of the command-id table; encoding and decoding undo each other by these three facts. -/

namespace Sys2Proof.Machine

section encoding
variable {sync b₀ cmd size crc8 : Byte} {st : RxState} {p : PortId} {ack : Bool} {id : BitVec 7} {i : Instr}
  {data rest bs : List Byte} {crc16 : Word16} {c : DecodeCtx}

/-! ### The fields of a byte and of a word (R92, R96, R103) -/

@[simp] theorem cmdIdOf_cmdByte (ack : Bool) (id : BitVec 7) : cmdIdOf (cmdByte ack id) = id :=
  BitVec.extractLsb'_append_eq_right

@[simp] theorem cmdAckOf_cmdByte (ack : Bool) (id : BitVec 7) : cmdAckOf (cmdByte ack id) = ack :=
  BitVec.msb_append.trans (by simp)

@[simp] theorem cmdByte_cmdAckOf_cmdIdOf (b : Byte) : cmdByte (cmdAckOf b) (cmdIdOf b) = b := by
  have hack : BitVec.ofBool (cmdAckOf b) = b.extractLsb' 7 1 := by
    ext k hk
    obtain rfl : k = 0 := by omega
    simp [cmdAckOf, BitVec.msb_eq_getLsbD_last]
  calc cmdByte (cmdAckOf b) (cmdIdOf b)
      = b.extractLsb' 7 1 ++ b.extractLsb' 0 7 := congrArg (· ++ cmdIdOf b) hack
    _ = b.extractLsb' 0 8 := BitVec.extractLsb'_append_extractLsb'_eq_extractLsb' rfl
    _ = b := BitVec.extractLsb'_eq_self

@[simp] theorem hiOctet_append (hi lo : Byte) : hiOctet (hi ++ lo) = hi := BitVec.extractLsb'_append_eq_left

@[simp] theorem loOctet_append (hi lo : Byte) : loOctet (hi ++ lo) = lo := BitVec.extractLsb'_append_eq_right

@[simp] theorem hiOctet_append_loOctet (w : Word16) : hiOctet w ++ loOctet w = w :=
  calc hiOctet w ++ loOctet w
      = w.extractLsb' 0 16 := BitVec.extractLsb'_append_extractLsb'_eq_extractLsb' rfl
    _ = w := BitVec.extractLsb'_eq_self

/-! ### The payload and its `SIZE` (R90, R93) -/

/-- A payload whose length a byte can hold is as long as its `SIZE` says. -/
theorem toNat_sizeByte (h : data.length ≤ 255) : (sizeByte data).toNat = data.length := by
  simpa [sizeByte] using Nat.lt_succ_of_le h

/-- A payload as long as a byte says has that byte as its `SIZE`. -/
theorem sizeByte_of_length (h : data.length = size.toNat) : sizeByte data = size := by
  simp [sizeByte, h]

/-- Splitting finds the payload that stands before the octets of `CRC16`. -/
theorem splitData_append (data : List Byte) (crc16 : Word16) :
    splitData data.length (data ++ [hiOctet crc16, loOctet crc16]) = some (data, crc16) := by
  induction data with
  | nil => simp [splitData]
  | cons b data ih => simp [splitData, ih]

/-- What splitting finds is all of the bytes: `n` bytes of payload, then the octets of `CRC16`. -/
theorem splitData_eq_some {n : Nat} (h : splitData n rest = some (data, crc16)) :
    data.length = n ∧ rest = data ++ [hiOctet crc16, loOctet crc16] := by
  fun_induction splitData n rest generalizing data with
  | case1 hi lo =>
    cases h
    simp
  | case2 n b rest ih =>
    obtain ⟨⟨tail, crc⟩, htail, heq⟩ := Option.map_eq_some_iff.mp h
    cases heq
    obtain ⟨hlen, hrest⟩ := ih htail
    exact ⟨congrArg (· + 1) hlen, congrArg (b :: ·) hrest⟩
  | case3 => cases h

/-! ### The frames (R90) -/

/-- Bytes that are read as a frame are the bytes of that frame. -/
theorem encode_of_decodeFrame (h : decodeFrame c b₀ cmd size crc8 rest = .instr i) :
    encode c.sync i = some (b₀ :: cmd :: size :: crc8 :: rest) := by
  unfold decodeFrame at h
  by_cases hsync : b₀ = c.sync
  · by_cases hsize : size = 0
    · by_cases hrest : rest = []
      · simp only [hsync, hsize, hrest, if_true, Decoded.instr.injEq] at h
        subst h hsync hsize hrest
        simp [encode, headerBytes]
      · simp [hsync, hsize, hrest] at h
    · rw [if_pos hsync, if_neg hsize] at h
      split at h <;> cases h
      next data crc16 hsplit =>
        obtain ⟨hlen, rfl⟩ := splitData_eq_some hsplit
        simp [encode, dataFrameBytes, headerBytes, hsync, sizeByte_of_length hlen]
  · simp [hsync] at h

/-- The bytes of a header-only frame are that frame on the port they arrive on. -/
theorem decode_headerBytes :
    decode ⟨sync, st, p⟩ (headerBytes sync (cmdByte ack id) 0 crc8) = .instr (.frameHeaderOnly p ack id crc8) := by
  simp [decode, headerBytes, decodeFrame]

/-- The bytes of a frame with 1 to 255 bytes of data are that frame on the port they arrive on. -/
theorem decode_dataFrameBytes (hpos : 1 ≤ data.length) (hmax : data.length ≤ 255) :
    decode ⟨sync, st, p⟩ (dataFrameBytes sync (cmdByte ack id) crc8 data crc16) =
      .instr (.frameWithData p ack id crc8 data crc16) := by
  have hlen := toNat_sizeByte hmax
  have hsize : sizeByte data ≠ 0#8 := by
    intro h0
    rw [h0, BitVec.toNat_zero] at hlen
    omega
  simp [decode, dataFrameBytes, headerBytes, decodeFrame, hsize, hlen, splitData_append]

/-! ### The `CMD` bytes (R92, R105) -/

/-- Every `CMD` instruction is the entry of the command-id table at its id, and its word is its byte. -/
theorem cmdRow_statement (i : Instr) : Laws.CmdRow.Statement i := by
  cases ho : i.cmdOperands with
  | none => exact Laws.CmdRow.of_none ho
  | some o => cases i <;> cases ho <;> exact Laws.CmdRow.of_some rfl rfl fun _ => rfl

/-- The table's instruction at an id has that id, and the port and the ack bit it is given. -/
theorem cmdOperands_cmdInstr (id : BitVec 7) (p : PortId) (ack : Bool) :
    (cmdInstr id p ack).cmdOperands = some (p, ack, id) := by
  have h : ∀ n < 128, (cmdInstr (BitVec.ofNat 7 n) p ack).cmdOperands = some (p, ack, BitVec.ofNat 7 n) := by
    intro n hn
    interval_cases n <;> rfl
  simpa using h id.toNat id.isLt

/-- The byte of a `CMD` instruction is read in `RxCmd` as that instruction. -/
theorem decode_encode_cmd (hc : i.cmdOperands = some (p, ack, id)) (he : encode sync i = some bs) :
    decode ⟨sync, .rxCmd, p⟩ bs = .instr i := by
  obtain ⟨hi, henc⟩ := cmdRow_statement i p ack id hc
  rw [henc sync] at he
  cases he
  simp [decode, decodeByte, ← hi]

/-- A byte read in `RxCmd` is the byte of the instruction it is read as. -/
theorem encode_decodeByte_rxCmd (b : Byte) (p : PortId) :
    encode sync (decodeByte ⟨sync, .rxCmd, p⟩ b) = some [b] := by
  have h := (cmdRow_statement _ p (cmdAckOf b) (cmdIdOf b) (cmdOperands_cmdInstr ..)).2 sync
  simpa [decodeByte] using h

end encoding

/-- Settles O1: `SYNC` is read by the decoder's state, a `CMD` byte by the command-id table, a frame by its `SIZE`; the
other instructions are read in no state. -/
theorem decodeEncode : Obligations.DecodeEncode := by
  intro sync st p i bs hwf hread henc
  cases i with
  | sync =>
    obtain ⟨rfl, rfl⟩ := hread
    cases henc
    simp [decode, decodeByte]
  | rxByteSyncMidframe =>
    obtain ⟨rfl, m, rfl⟩ := hread
    cases henc
    simp [decode, decodeByte]
  | frameHeaderOnly =>
    cases hread
    cases henc
    exact decode_headerBytes
  | frameWithData _ ack id crc8 data crc16 =>
    cases hread
    cases henc
    simp only [Instr.wf, Bool.and_eq_true, decide_eq_true_eq] at hwf
    obtain ⟨-, hpos, hmax⟩ := hwf
    exact decode_dataFrameBytes hpos hmax
  | _ =>
    obtain ⟨ack, id, hc, rfl⟩ := hread
    exact decode_encode_cmd hc henc

/-- Settles O2, by the number of bytes: none, two or three are no instruction, one is read in `RxCmd`, four or more are
a frame. -/
theorem encodeDecode : Obligations.EncodeDecode := by
  rintro ⟨sync, st, p⟩ bs i hread hdec
  match bs, hread, hdec with
  | [b], hread, hdec =>
    obtain rfl : st = .rxCmd := by simpa using hread
    cases hdec
    exact encode_decodeByte_rxCmd b p
  | b :: cmd :: size :: crc8 :: rest, _, hdec => exact encode_of_decodeFrame hdec

/-- Settles O8: each `CMD` instruction is the arrival of its byte. -/
theorem cmdRowsAreByteSteps : Obligations.CmdRowsAreByteSteps := by
  intro i p ack id s h
  rw [exec_of_cmdOperands h]
  rfl

/-- Settles O3, by evaluating the decoder. -/
theorem decodeWords : Obligations.DecodeWords := by
  unfold Obligations.DecodeWords
  decide

end Sys2Proof.Machine


/-! SUPPORT. The statements of `spec/40_crc.md`. The default CRC-16 is linear for exclusive-or, and the bits of a word
that `n` steps do not push out are only moved up by them; its table form is these two facts applied to a word's
octets. -/

namespace Sys2Proof.Machine

section crc
variable {x y : Word16}

/-! ### The octets of a word -/

/-- A word is its high octet moved up, exclusive-or its low octet. -/
theorem hiOctet_shiftLeft_xor_loOctet (w : Word16) :
    ((hiOctet w).zeroExtend 16 <<< 8) ^^^ (loOctet w).zeroExtend 16 = w := by
  refine BitVec.eq_of_getLsbD_eq fun k hk => ?_
  by_cases h : k < 8
  · simp [loOctet, h, hk]
  · have hsplit : 8 + (k - 8) = k := by omega
    have hhi : k - 8 < 8 := by omega
    simp [hiOctet, loOctet, h, hk, hsplit, hhi]

/-- Moved up by a byte, a word keeps its low octet only. -/
theorem loOctet_shiftLeft (w : Word16) : (loOctet w).zeroExtend 16 <<< 8 = w <<< 8 := by
  refine BitVec.eq_of_getLsbD_eq fun k hk => ?_
  have hlo : k - 8 < 8 := by omega
  have hw : k - 8 < 16 := by omega
  simp [loOctet, hlo, hw]

/-! ### The bits of the default CRC-16 (R125) -/

theorem crc16Bit_of_msb (h : x.msb = true) : crc16Bit x = (x <<< 1) ^^^ 0x1021 := if_pos h

theorem crc16Bit_of_not_msb (h : x.msb = false) : crc16Bit x = x <<< 1 := by simp [crc16Bit, h]

/-- One bit is linear: the polynomial is added once for each argument whose bit 15 is set, and twice is not at all. -/
theorem crc16Bit_xor (x y : Word16) : crc16Bit (x ^^^ y) = crc16Bit x ^^^ crc16Bit y := by
  have hmsb : (x ^^^ y).msb = (x.msb ^^ y.msb) := BitVec.msb_xor
  have hshift : (x ^^^ y) <<< 1 = (x <<< 1) ^^^ (y <<< 1) := BitVec.shiftLeft_xor_distrib x y 1
  cases hx : x.msb <;> cases hy : y.msb <;> simp only [hx, hy] at hmsb
  · rw [crc16Bit_of_not_msb hmsb, crc16Bit_of_not_msb hx, crc16Bit_of_not_msb hy, hshift]
  · rw [crc16Bit_of_msb hmsb, crc16Bit_of_not_msb hx, crc16Bit_of_msb hy, hshift, BitVec.xor_assoc]
  · rw [crc16Bit_of_msb hmsb, crc16Bit_of_msb hx, crc16Bit_of_not_msb hy, hshift]
    ac_rfl
  · rw [crc16Bit_of_not_msb hmsb, crc16Bit_of_msb hx, crc16Bit_of_msb hy, hshift]
    calc (x <<< 1) ^^^ (y <<< 1)
        = (x <<< 1) ^^^ (y <<< 1) ^^^ (0x1021 ^^^ 0x1021) := by simp
      _ = ((x <<< 1) ^^^ 0x1021) ^^^ ((y <<< 1) ^^^ 0x1021) := by ac_rfl

/-- Every number of bits is linear. -/
theorem crc16Bits_xor (n : Nat) (x y : Word16) : crc16Bits n (x ^^^ y) = crc16Bits n x ^^^ crc16Bits n y := by
  induction n generalizing x y with
  | zero => rfl
  | succ n ih => rw [crc16Bits, crc16Bit_xor, ih, crc16Bits, crc16Bits]

/-- As long as no set bit leaves the word, the bits of the CRC move it up and do nothing else. -/
theorem crc16Bits_eq_shiftLeft {n : Nat} (h : x.toNat * 2 ^ n < 2 ^ 16) : crc16Bits n x = x <<< n := by
  induction n generalizing x with
  | zero => simp [crc16Bits]
  | succ n ih =>
    have hbits : x.toNat * 2 * 2 ^ n < 2 ^ 16 := by rwa [mul_assoc, ← pow_succ']
    have hsmall : x.toNat * 2 < 2 ^ 16 := lt_of_le_of_lt (Nat.le_mul_of_pos_right _ (Nat.two_pow_pos n)) hbits
    have hmsb : x.msb = false := by
      rw [BitVec.msb_eq_false_iff_two_mul_lt]
      omega
    have hmoved : (x <<< 1).toNat = x.toNat * 2 := by
      rw [BitVec.toNat_shiftLeft, Nat.shiftLeft_eq, pow_one, Nat.mod_eq_of_lt hsmall]
    rw [crc16Bits, crc16Bit_of_not_msb hmsb, ih (hmoved ▸ hbits), ← BitVec.shiftLeft_add, Nat.add_comm]

end crc

/-- Settles O28: on a ring that the caller holds, the operation is the step of the ring's accumulator. -/
theorem crcSteps : Obligations.CrcSteps := by
  intro s who
  exact ⟨fun _ _ => rfl, fun _ _ => rfl,
    fun p T src hT hl => ⟨State.withHeldRing_eq hT hl, State.withHeldRing_eq hT hl⟩⟩

/-- Settles O29: the step is linear, so the accumulator's two octets pass through it separately; the high one meets the
byte, and the low one is moved up by a byte without meeting the polynomial. -/
theorem crc16TableForm : Obligations.Crc16TableForm := by
  intro b acc
  have hinput : acc ^^^ (b.zeroExtend 16 <<< 8) =
      (loOctet acc).zeroExtend 16 ^^^ ((hiOctet acc ^^^ b).zeroExtend 16 <<< 8) := by
    rw [BitVec.zeroExtend, BitVec.setWidth_xor, BitVec.shiftLeft_xor_distrib]
    conv_lhs => rw [← hiOctet_shiftLeft_xor_loOctet acc]
    simp only [BitVec.zeroExtend]
    ac_rfl
  have hlow : crc16Bits 8 ((loOctet acc).zeroExtend 16) = acc <<< 8 := by
    rw [crc16Bits_eq_shiftLeft, loOctet_shiftLeft]
    have hlt := (loOctet acc).isLt
    rw [BitVec.toNat_setWidth_of_le (by decide)]
    omega
  calc crc16Ccitt b acc
      = crc16Bits 8 ((loOctet acc).zeroExtend 16 ^^^ ((hiOctet acc ^^^ b).zeroExtend 16 <<< 8)) :=
        congrArg (crc16Bits 8) hinput
    _ = (acc <<< 8) ^^^ crc16Bits 8 ((hiOctet acc ^^^ b).zeroExtend 16 <<< 8) := by rw [crc16Bits_xor, hlow]
    _ = (acc <<< 8) ^^^ crc16Ccitt (hiOctet acc ^^^ b) 0x0000 := congrArg (_ ^^^ crc16Bits 8 ·) BitVec.zero_xor.symm

end Sys2Proof.Machine


/-! SUPPORT. The statements of `spec/41_circular_buffer.md` about the whole machine. What an instruction may write is
said once: whatever an agent executes is a chain of single writes, each allowed to that agent and that instruction. So
an invariant of every write is one of every step, and a cursor moves in a step only where a write may move it. -/

namespace Sys2Proof.Machine

/-! ### What an operation can do to a ring -/

/-- Everything an agent executing `i` can do to the ring of port `p`: each write of the write cursor is part of a
commit, and an advance is the drain task's (R132 to R143, R241). -/
inductive Ring.Op (i : Instr) (who : Agent) (p : PortId) (T : Ring) : Ring → Prop
  | claim (hl : T.lock = .free) : Ring.Op i who p T (T.claim who)
  | release (hl : T.lock = .held who) : Ring.Op i who p T T.release
  | dropCall (hl : T.lock = .held who) : Ring.Op i who p T T.dropCall
  | stepCrc8 (hl : T.lock = .held who) (c : Cfg) (b : Byte) : Ring.Op i who p T (T.stepCrc8 c b)
  | stepCrc16 (hl : T.lock = .held who) (c : Cfg) (b : Byte) : Ring.Op i who p T (T.stepCrc16 c b)
  | writeRaw (hl : T.lock = .held who) (b : Byte) : Ring.Op i who p T (T.writeRaw b)
  | writeEsc (hl : T.lock = .held who) (c : Cfg) (b : Byte) : Ring.Op i who p T (T.writeEsc c b)
  | commit (hl : T.lock = .held who) (hi : i.commits = true) : Ring.Op i who p T T.commit.1
  | generate (hl : T.lock = .held who) (hi : i.commits = true) (c : Cfg) (cmd : Byte) (payload : Option (List Byte)) :
      Ring.Op i who p T (T.generate c cmd payload).1
  | send (hl : T.lock = .free) (hi : i.commits = true) (c : Cfg) (cmd : Byte) (payload : Option (List Byte)) :
      Ring.Op i who p T ((T.claim who).generate c cmd payload).1.release
  | advance (hw : who = .drain p) (hi : i.advances = true) (n : Nat) (hn : n ≤ T.used) :
      Ring.Op i who p T (T.advance n)

/-- One write of an agent executing `i`: registers that keep the invariants, a ring operation, the agent's own drain
task, a signal or the agent's own wake, the environment and the observations, and the agents' records. -/
inductive State.Update (i : Instr) (who : Agent) (s : State) : State → Prop
  | rx {p : PortId} {r r' : Rx} (hr : s.rx? p = some r) (hi : r.Inv s.cfg p → r'.Inv s.cfg p) :
      State.Update i who s (s.setRx p r')
  | tx {p : PortId} {T T' : Ring} (hT : s.tx? p = some T) (ho : T.Op i who p T') : State.Update i who s (s.setTx p T')
  | drain {p : PortId} {d d' : Drain} (hw : who = .drain p) (hd : s.drain? p = some d) :
      State.Update i who s (s.setDrain p d')
  | pending {p : PortId} {v : Bool} (hv : who ≠ .drain p → v = true) : State.Update i who s (s.setPending p v)
  | env {p : PortId} {e : Env} : State.Update i who s (s.setEnv p e)
  | emit {p : PortId} {es : List Event} : State.Update i who s (s.emit p es)
  | boundary {p : PortId} {cs : List BoundaryCall} : State.Update i who s (s.boundary p cs)
  | records {t : State} (hc : t.cfg = s.cfg) (hp : t.ports = s.ports) : State.Update i who s t

/-- What an agent executing `i` leaves: writes one after the other. -/
abbrev State.Updates (i : Instr) (who : Agent) : State → State → Prop := Relation.ReflTransGen (State.Update i who)

section updates
variable {s t : State} {p : PortId} {who : Agent} {i : Instr}

theorem State.Updates.pushWork {a : Agent} {is : List Instr} (h : State.Updates i who s t) :
    State.Updates i who s (t.pushWork a is) :=
  h.tail (.records (t.pushWork_cfg a is) (t.pushWork_ports a is))

theorem State.Updates.setRet {a : Agent} {v : Ret} (h : State.Updates i who s t) :
    State.Updates i who s (t.setRet a v) :=
  h.tail (.records rfl rfl)

theorem State.Updates.takeInput (rest : List RxAnswer) : State.Updates i who s (s.takeInput p rest) :=
  (Relation.ReflTransGen.single .env).tail .boundary

/-! ### The shared operations -/

theorem State.decoder_updates {f : Cfg → Rx → RxResult} (hf : ∀ {c r o}, r.Inv c p → f c r = .ok o → o.Inv c p)
    (h : s.decoder p f = .next t) : State.Updates i who s t := by
  obtain ⟨r, o, hr, ho, rfl⟩ := State.decoder_next h
  exact State.Updates.pushWork ((Relation.ReflTransGen.single (.rx hr fun hi => (hf hi ho).rx)).tail .emit)

/-- An operation on a held ring that returns a value. -/
theorem State.withHeldRing_updates {g : Ring → Ring} {v : Ring → Ret}
    (hg : ∀ T : Ring, T.lock = .held who → T.Op i who p (g T))
    (h : s.withHeldRing who p (fun T => .next ((s.setTx p (g T)).setRet who (v T))) = .next t) :
    State.Updates i who s t := by
  obtain ⟨T, hT, hl, hk⟩ := State.withHeldRing_next h
  cases hk
  exact State.Updates.setRet (.single (.tx hT (hg T hl)))

/-- A query of the cursors writes its caller's value only. -/
theorem State.cursorQuery_updates {a : Agent} {v : Ring → Ret}
    (h : (s.withRing p fun T => if T.mayReadCursors a p then .next (s.setRet a (v T)) else .refused .notOwner) =
      .next t) : State.Updates i who s t := by
  obtain ⟨T, -, hk⟩ := State.withRing_next h
  split at hk <;> cases hk
  exact State.Updates.setRet .refl

theorem State.generateHeld_updates {cmd : Byte} {payload : Option (List Byte)} (hi : i.commits = true)
    (h : s.generateHeld who p cmd payload = .next t) : State.Updates i who s t := by
  obtain ⟨T, hT, hl, hk⟩ := State.withHeldRing_next h
  cases hk
  exact State.Updates.setRet ((Relation.ReflTransGen.single (.tx hT (.generate hl hi s.cfg cmd payload))).tail .emit)

theorem State.generateAndSend_updates {self : Instr} {cmd : Byte} {data : List Byte} (hi : i.commits = true)
    (h : s.generateAndSend self who cmd p data = .next t) : State.Updates i who s t := by
  rcases s.generateAndSend_cases self who cmd p data with ⟨-, he⟩ | ⟨T, hT, ⟨-, he⟩ | ⟨g, -, ⟨x, -, he⟩ | ⟨hl, he⟩⟩⟩ <;>
    rw [he] at h <;> cases h
  · exact State.Updates.setRet .refl
  · exact State.Updates.setRet .refl
  · exact State.Updates.pushWork .refl
  · have hT' : (s.payloadTaken g).tx? p = some T := by
      rw [← hT, State.tx?, State.tx?, State.port?_of_ports (s.payloadTaken_ports g)]
    have htaken : State.Updates i who s (s.payloadTaken g) :=
      .single (.records (s.payloadTaken_cfg g) (s.payloadTaken_ports g))
    exact State.Updates.pushWork (State.Updates.setRet ((htaken.tail (.tx hT' (.send hl hi _ _ _))).tail .emit))

/-! ### The instructions -/

/-- The instructions of a port's receiver are decoder operations that keep the invariants of its registers. -/
theorem exec_updates_of_rxPort? (hp : i.rxPort? = some p) (h : exec i s = .next t) : State.Updates i who s t := by
  cases i with
  | sync | rxByteSyncMidframe | rxStep => cases hp; exact State.decoder_updates rxStep_inv h
  | frameHeaderOnly | frameWithData => cases hp; exact State.decoder_updates rxFeed_inv h
  | rxWaitSync => cases hp; exact State.decoder_updates onWaitSync_inv h
  | rxReseed =>
    cases hp
    exact State.decoder_updates (f := fun c r => .ok (.regs (reseed c r)))
      (fun hr ho => by cases ho; exact .regs (Rx.inv_reseed hr)) h
  | rxRxCmd => cases hp; exact State.decoder_updates onRxCmd_inv h
  | rxRxSize => cases hp; exact State.decoder_updates onRxSize_inv h
  | rxRxCrc8 => cases hp; exact State.decoder_updates onRxCrc8_inv h
  | rxFail _ cause =>
    cases hp
    exact State.decoder_updates (f := fun c r => .ok (takeFramingError c cause r))
      (fun hr ho => by cases ho; exact takeFramingError_inv hr cause) h
  | rxComplete => cases hp; exact State.decoder_updates complete_inv h
  | rxRxData => cases hp; exact State.decoder_updates onRxData_inv h
  | rxRxCrc16Hi => cases hp; exact State.decoder_updates onRxCrc16Hi_inv h
  | rxRxCrc16Lo => cases hp; exact State.decoder_updates onRxCrc16Lo_inv h
  | rxEscapeConfirmed => cases hp; exact State.decoder_updates onEscapeConfirmed_inv h
  | rxAbandonRestart => cases hp; exact State.decoder_updates onAbandonRestart_inv h
  | _ =>
    simp only [Instr.rxPort?] at hp
    obtain ⟨⟨q, ack, id⟩, hc, rfl⟩ := Option.map_eq_some_iff.mp hp
    rw [exec_of_cmdOperands hc] at h
    exact State.decoder_updates rxStep_inv h

theorem execCrc8Step_updates {form : Crc8Form} (h : execCrc8Step who form s = .next t) : State.Updates i who s t := by
  cases form with
  | value b acc => cases h; exact State.Updates.setRet .refl
  | gen p src => exact State.withHeldRing_updates (fun T hl => .stepCrc8 hl s.cfg (byteOf T src)) h

theorem execCrc16Step_updates {form : Crc16Form} (h : execCrc16Step who form s = .next t) :
    State.Updates i who s t := by
  cases form with
  | value b acc => cases h; exact State.Updates.setRet .refl
  | gen p src => exact State.withHeldRing_updates (fun T hl => .stepCrc16 hl s.cfg (byteOf T src)) h

theorem execCbClaim_updates (h : execCbClaim who p s = .next t) : State.Updates i who s t := by
  obtain ⟨T, hT, hk⟩ := State.withRing_next h
  split at hk <;> cases hk
  · next hl => exact State.Updates.setRet (.single (.tx hT (.claim hl)))
  · exact State.Updates.pushWork .refl

theorem execCbAdvance_updates {n : Nat} (hi : i.advances = true) (h : execCbAdvance who p n s = .next t) :
    State.Updates i who s t := by
  obtain ⟨T, hT, hk⟩ := State.withRing_next h
  split at hk
  · next hw =>
    split at hk <;> cases hk
    next hn => exact State.Updates.setRet (.single (.tx hT (.advance hw hi n (of_decide_eq_true hn).2)))
  · cases hk

theorem execSignal_updates (h : execSignal p s = .next t) : State.Updates i who s t := by
  unfold execSignal at h
  split at h <;> cases h
  · exact .refl
  · exact (Relation.ReflTransGen.single (.pending fun _ => rfl)).tail .emit

theorem execDrainWake_updates (hw : who = .drain p) (h : execDrainWake p s = .next t) : State.Updates i who s t := by
  obtain ⟨d, hd, hk⟩ := State.withDrain_next h
  split at hk
  · split at hk <;> cases hk
    · have hcleared : State.Update i who s (s.setPending p false) := .pending (absurd hw)
      exact (Relation.ReflTransGen.single hcleared).tail (.drain (d := d) hw (by simpa using hd))
    · exact .refl
  · cases hk; exact .refl

theorem State.Updates.abortDrain {d : Drain} {cause : DrainCause} (hs : State.Updates i who s t) (hw : who = .drain p)
    (hd : t.drain? p = some d) : State.Updates i who s (t.abortDrain p cause) :=
  (hs.tail (.drain hw hd)).tail .emit

theorem execDrainAbort_updates {cause : DrainCause} (hw : who = .drain p) (h : execDrainAbort p cause s = .next t) :
    State.Updates i who s t := by
  obtain ⟨d, hd, hk⟩ := State.withDrain_next h
  split at hk <;> cases hk
  · exact .refl
  · exact State.Updates.abortDrain .refl hw hd

theorem State.drainTest_updates {d : Drain} (T : Ring) (hw : who = .drain p) (hd : s.drain? p = some d) :
    State.Updates i who s (s.drainTest p T) := by
  unfold State.drainTest
  split <;> exact .single (.drain hw hd)

theorem State.drainQuery_updates {d : Drain} (hw : who = .drain p) (hd : s.drain? p = some d) :
    State.Updates i who s (s.drainQuery p) := by
  unfold State.drainQuery
  split
  · exact .refl
  · next a rest _ =>
    have hasked : State.Updates i who s
        ((s.setEnv p { s.env p with active := rest }).boundary p [.isActive]) :=
      (Relation.ReflTransGen.single .env).tail .boundary
    split
    · exact hasked.tail (.drain (d := d) hw (by simpa using hd))
    · exact hasked.abortDrain (d := d) hw (by simpa using hd)

theorem State.drainRead_updates {d : Drain} {T : Ring} (hw : who = .drain p) (hd : s.drain? p = some d)
    (h : s.drainRead p T = .next t) : State.Updates i who s t := by
  unfold State.drainRead at h
  split at h <;> cases h
  exact .single (.drain hw hd)

theorem State.drainSend_updates {d : Drain} (bs : List Byte) (hw : who = .drain p) (hd : s.drain? p = some d) :
    State.Updates i who s (s.drainSend p bs) := by
  unfold State.drainSend
  split
  · exact .refl
  · exact ((Relation.ReflTransGen.single .env).tail .boundary).tail (.drain (d := d) hw (by simpa using hd))

theorem State.drainSettle_updates {d : Drain} {T : Ring} {bs : List Byte} {ok : Bool} (hi : i.advances = true)
    (hw : who = .drain p) (hd : s.drain? p = some d) (hT : s.tx? p = some T) (h : s.drainSettle p T bs ok = .next t) :
    State.Updates i who s t := by
  unfold State.drainSettle at h
  split at h
  · split at h <;> cases h
    next hn =>
      have hadv : T.Op i who p (T.advance bs.length) := .advance hw hi _ (of_decide_eq_true hn).2
      exact ((Relation.ReflTransGen.single (.tx hT hadv)).tail .emit).tail (.drain (d := d) hw (by simpa using hd))
  · cases h
    exact State.Updates.abortDrain .refl hw hd

/-- Each numbered line of the drain loop (R249). -/
theorem execDrainIteration_updates (hi : i.advances = true) (hw : who = .drain p)
    (h : execDrainIteration p s = .next t) : State.Updates i who s t := by
  obtain ⟨d, hd, hr⟩ := State.withDrain_next h
  obtain ⟨T, hT, hk⟩ := State.withRing_next hr
  split at hk
  · cases hk; exact .refl
  · split at hk
    · cases hk; exact State.drainTest_updates T hw hd
    · cases hk; exact State.drainQuery_updates hw hd
    · exact State.drainRead_updates hw hd hk
    · cases hk; exact State.drainSend_updates _ hw hd
    · exact State.drainSettle_updates hi hw hd hT hk

theorem execDecodeTaskIteration_updates (h : execDecodeTaskIteration p s = .next t) : State.Updates i who s t := by
  unfold execDecodeTaskIteration at h
  split at h
  · cases h
  · split at h
    · cases h; exact .refl
    · cases h; exact State.Updates.takeInput _
    · exact (State.Updates.takeInput _).trans (State.decoder_updates rxStep_inv h)

/-- Whatever an agent executes is made of the writes of that agent: the decoder's operations of its registers, the
others one by one. -/
theorem exec_updates (hm : mayExecute who i = true) (h : exec i s = .next t) : State.Updates i who s t := by
  cases hp : i.rxPort? with
  | some p => exact exec_updates_of_rxPort? hp h
  | none =>
    cases i with
    | crc8Step => obtain rfl := of_decide_eq_true hm; exact execCrc8Step_updates h
    | crc16Step => obtain rfl := of_decide_eq_true hm; exact execCrc16Step_updates h
    | cbClaim => obtain rfl := of_decide_eq_true hm; exact execCbClaim_updates h
    | cbRelease =>
      obtain rfl := of_decide_eq_true hm
      exact State.withHeldRing_updates (fun _ hl => .release hl) h
    | cbFree | cbIsEmpty | cbReadableRun => exact State.cursorQuery_updates h
    | cbWriteRaw _ _ src =>
      obtain rfl := of_decide_eq_true hm
      exact State.withHeldRing_updates (fun T hl => .writeRaw hl (byteOf T src)) h
    | cbWriteEsc _ _ src =>
      obtain rfl := of_decide_eq_true hm
      exact State.withHeldRing_updates (fun T hl => .writeEsc hl s.cfg (byteOf T src)) h
    | cbCommit =>
      obtain rfl := of_decide_eq_true hm
      exact State.withHeldRing_updates (fun _ hl => .commit hl rfl) h
    | cbDiscard =>
      obtain rfl := of_decide_eq_true hm
      exact State.withHeldRing_updates (fun _ hl => .dropCall hl) h
    | cbReadRun =>
      obtain ⟨T, bs, -, -, -, -, rfl⟩ := execCbReadRun_next h
      exact State.Updates.setRet .refl
    | cbAdvance => obtain rfl := of_decide_eq_true hm; exact execCbAdvance_updates rfl h
    | genHeaderOnly | genGeneric => obtain rfl := of_decide_eq_true hm; exact State.generateHeld_updates rfl h
    | rxSendAck | generateAndSend => obtain rfl := of_decide_eq_true hm; exact State.generateAndSend_updates rfl h
    | lookupDec | lookupGen => cases h; exact State.Updates.setRet .refl
    | signal => exact execSignal_updates h
    | drainWake => exact execDrainWake_updates (of_decide_eq_true hm) h
    | drainIteration => exact execDrainIteration_updates rfl (of_decide_eq_true hm) h
    | drainAbort => exact execDrainAbort_updates (of_decide_eq_true hm) h
    | decodeTaskIteration => exact execDecodeTaskIteration_updates h
    | _ => cases hp

/-! ### The steps -/

/-- The state in which a turn executes its instruction: a work item or an input taken. -/
theorem FetchCases.run_updates {j : Instr} (h : FetchCases who s (.run j t)) : State.Updates i who s t := by
  cases h with
  | work => exact .single (.records rfl rfl)
  | byte => exact State.Updates.takeInput _
  | round => exact .refl
  | wake => exact .refl
  | line => exact .refl

/-- A handler's return writes the receiver's call in progress and the decode task's operations. -/
theorem FetchCases.moved_updates (h : FetchCases who s (.moved t)) : State.Updates i who s t := by
  cases h with
  | returned p r replies rest ha hr hs =>
    have hr' : (s.setEnv p { s.env p with handlerReturns := rest }).rx? p = some r := by simpa using hr
    exact State.Updates.pushWork ((Relation.ReflTransGen.single .env).tail
      (.rx hr' fun hI => hI.congr rfl rfl rfl rfl rfl))

/-- A step is made of the writes of the agent whose turn it is. -/
theorem step_updates (h : step s = .next t) :
    (s.sched = [] ∧ t = s) ∨ ∃ a rest i, s.sched = a :: rest ∧ State.Updates i a s t := by
  rcases step_cases s with ⟨hnil, he⟩ | ⟨a, rest, hs, x, hx, he⟩ <;> rw [he] at h
  · cases h; exact .inl ⟨hnil, rfl⟩
  · have hturned {i : Instr} : State.Updates i a s (s.turned rest) := .single (.records rfl rfl)
    refine .inr ⟨a, rest, ?_⟩
    cases x with
    | idle => cases h; exact ⟨.signal 0, hs, hturned⟩
    | moved u => cases h; exact ⟨.signal 0, hs, hturned.trans hx.moved_updates⟩
    | run i u => exact ⟨i, hs, (hturned.trans hx.run_updates).trans (exec_updates hx.mayExecute h)⟩
    | misuse => cases h

/-! ### The writes keep the invariants -/

theorem Ring.Op.inv {T T' : Ring} (ho : T.Op i who p T') (h : T.Inv) : T'.Inv := by
  have held_ne_free (hl : T.lock = .held who) : T.lock ≠ .free := by simp [hl]
  cases ho with
  | claim => exact h.claim who
  | release => exact h.release
  | dropCall => exact h.dropCall
  | stepCrc8 hl c b => exact h.stepCrc8 (held_ne_free hl) c b
  | stepCrc16 hl c b => exact h.stepCrc16 (held_ne_free hl) c b
  | writeRaw hl b => exact h.writeRaw (held_ne_free hl) b
  | writeEsc hl c b => exact h.writeEsc (held_ne_free hl) c b
  | commit => exact h.commit
  | generate hl _ c cmd payload => exact h.generate (held_ne_free hl) c cmd payload
  | send _ _ c cmd payload => exact ((h.claim who).generate (by simp) c cmd payload).release
  | advance _ _ n hn => exact h.advance hn

theorem State.Update.inv (hu : State.Update i who s t) (h : s.Inv) : t.Inv := by
  cases hu with
  | rx hr hi => exact h.setRx (hi (h.rx hr))
  | tx hT ho => exact h.setTx (ho.inv (h.tx hT))
  | drain _ hd => exact h.setDrain hd _
  | pending => exact h.setPending _
  | env => exact h.setEnv _
  | emit => exact h.emit _
  | boundary => exact h.boundary _
  | records hc hp => exact h.congr hc hp

theorem State.Updates.inv (hu : State.Updates i who s t) (h : s.Inv) : t.Inv := by
  induction hu with
  | refl => exact h
  | tail _ hstep ih => exact hstep.inv ih

end updates

/-- Settles O58: a step is made of writes that each keep the invariants. -/
theorem stepKeepsInv : Obligations.StepKeepsInv := by
  intro s t hI h
  rcases step_updates h with ⟨-, rfl⟩ | ⟨a, rest, i, -, hu⟩
  · exact hI
  · exact hu.inv hI

/-! ### Which ring operations move a cursor -/

section cursors
variable (T : Ring) (c : Cfg) (b cmd : Byte) (ds : List Byte)

theorem Ring.writeRaw_cursors : (T.writeRaw b).head = T.head ∧ (T.writeRaw b).tail = T.tail := by
  rcases Ring.writeRaw_cases T b with ⟨he, -⟩ | ⟨n, -, -, he⟩ <;> rw [he] <;> exact ⟨rfl, rfl⟩

theorem Ring.writeEsc_cursors : (T.writeEsc c b).head = T.head ∧ (T.writeEsc c b).tail = T.tail := by
  rcases Ring.writeEsc_cases c T b with ⟨he, -⟩ | ⟨n, -, -, -, he⟩ | ⟨n, -, -, -, he⟩ <;> rw [he] <;> exact ⟨rfl, rfl⟩

@[simp] theorem Ring.writeRaw_tail : (T.writeRaw b).tail = T.tail := (T.writeRaw_cursors b).2

@[simp] theorem Ring.writeEsc_tail : (T.writeEsc c b).tail = T.tail := (T.writeEsc_cursors c b).2

@[simp] theorem Ring.commit_tail : T.commit.1.tail = T.tail := by
  rcases T.commit_cases with ⟨-, he⟩ | ⟨n, -, he⟩ <;> rw [he] <;> rfl

@[simp] theorem Ring.finish_tail : T.finish.1.tail = T.tail := by
  unfold Ring.finish
  split <;> exact T.commit_tail

@[simp] theorem Ring.emitData_tail : (T.emitData c ds).tail = T.tail := by
  induction ds generalizing T with
  | nil => rfl
  | cons d ds ih => simp [Ring.emitData, ih]

theorem Ring.genHeaderOnly_tail : (T.genHeaderOnly c cmd).1.tail = T.tail := by
  unfold Ring.genHeaderOnly
  split <;> simp

theorem Ring.genGeneric_tail : (T.genGeneric c cmd ds).1.tail = T.tail := by
  unfold Ring.genGeneric
  split
  · rfl
  · split
    · exact T.genHeaderOnly_tail c cmd
    · split <;> simp [Ring.emitBoth]

/-- A generator call leaves the read cursor (R145). -/
@[simp] theorem Ring.generate_tail (payload : Option (List Byte)) : (T.generate c cmd payload).1.tail = T.tail := by
  cases payload with
  | none => exact T.genHeaderOnly_tail c cmd
  | some data => exact T.genGeneric_tail c cmd data

end cursors

/-- What an agent that executes `i` may do to the cursors and the lock of the ring of port `p` (R144 item 5, R73, R285):
while another agent holds the lock, neither the write cursor nor the lock moves. -/
structure Ring.MovedBy (i : Instr) (who : Agent) (p : PortId) (T T' : Ring) : Prop where
  size : T'.size = T.size
  head : T'.head ≠ T.head → i.commits = true
  tail : T'.tail ≠ T.tail → i.advances = true ∧ who = .drain p
  locked : ∀ x, T.lock = .held x → x ≠ who → T'.head = T.head ∧ T'.lock = .held x

/-- What an agent that executes `i` may do to the record of port `p`: the drain task and the taking of a signal are
DrainTask(p)'s (R73, R316). -/
structure Port.MovedBy (i : Instr) (who : Agent) (p : PortId) (P Q : Port) : Prop where
  ring : ∀ T, P.tx = some T → ∃ T', Q.tx = some T' ∧ T.MovedBy i who p T'
  tail : who ≠ .drain p → Q.tx.map Ring.tail = P.tx.map Ring.tail
  drain : who ≠ .drain p → Q.drain = P.drain
  pending : who ≠ .drain p → P.pending = true → Q.pending = true

section moves
variable {i : Instr} {who : Agent} {p q : PortId} {T T' T'' : Ring} {P Q R : Port} {s t : State}

theorem Ring.MovedBy.refl (T : Ring) : T.MovedBy i who p T :=
  ⟨rfl, fun h => absurd rfl h, fun h => absurd rfl h, fun _ hl _ => ⟨rfl, hl⟩⟩

theorem Ring.MovedBy.trans (h : T.MovedBy i who p T') (h' : T'.MovedBy i who p T'') : T.MovedBy i who p T'' where
  size := h'.size.trans h.size
  head := fun hne => by
    by_cases he : T'.head = T.head
    · exact h'.head (he ▸ hne)
    · exact h.head he
  tail := fun hne => by
    by_cases he : T'.tail = T.tail
    · exact h'.tail (he ▸ hne)
    · exact h.tail he
  locked := fun x hl hx => by
    obtain ⟨hh, hl'⟩ := h.locked x hl hx
    obtain ⟨hh', hl''⟩ := h'.locked x hl' hx
    exact ⟨hh'.trans hh, hl''⟩

/-- An operation of the lock's holder moves the read cursor never, and the write cursor in a commit only. -/
theorem Ring.MovedBy.of_holder (hl : T.lock = .held who) (hs : T'.size = T.size)
    (hh : T'.head = T.head ∨ i.commits = true) (ht : T'.tail = T.tail) : T.MovedBy i who p T' where
  size := hs
  head := fun hne => hh.resolve_left hne
  tail := fun hne => absurd ht hne
  locked := fun _ hx hne => absurd (Lock.held.inj (hx.symm.trans hl)) hne

theorem Ring.MovedBy.of_free (hl : T.lock = .free) (hs : T'.size = T.size)
    (hh : T'.head = T.head ∨ i.commits = true) (ht : T'.tail = T.tail) : T.MovedBy i who p T' where
  size := hs
  head := fun hne => hh.resolve_left hne
  tail := fun hne => absurd ht hne
  locked := fun _ hx _ => by rw [hl] at hx; cases hx

theorem Ring.Op.movedBy (ho : T.Op i who p T') : T.MovedBy i who p T' := by
  cases ho with
  | claim hl => exact .of_free hl rfl (.inl rfl) rfl
  | release hl => exact .of_holder hl rfl (.inl rfl) rfl
  | dropCall hl => exact .of_holder hl rfl (.inl rfl) rfl
  | stepCrc8 hl c b => exact .of_holder hl rfl (.inl rfl) rfl
  | stepCrc16 hl c b => exact .of_holder hl rfl (.inl rfl) rfl
  | writeRaw hl b => exact .of_holder hl (by simp) (.inl (T.writeRaw_cursors b).1) (by simp)
  | writeEsc hl c b => exact .of_holder hl (by simp) (.inl (T.writeEsc_cursors c b).1) (by simp)
  | commit hl hi => exact .of_holder hl (by simp) (.inr hi) (by simp)
  | generate hl hi c cmd payload => exact .of_holder hl (by simp) (.inr hi) (by simp)
  | send hl hi c cmd payload => exact .of_free hl (by simp) (.inr hi) (by simp)
  | advance hw hi n hn => exact ⟨rfl, fun h => absurd rfl h, fun _ => ⟨hi, hw⟩, fun _ hl _ => ⟨rfl, hl⟩⟩

/-- A change of a record that leaves its ring. -/
theorem Port.MovedBy.of_tx_eq (ht : Q.tx = P.tx) (hd : who ≠ .drain p → Q.drain = P.drain)
    (hp : who ≠ .drain p → P.pending = true → Q.pending = true) : P.MovedBy i who p Q :=
  ⟨fun T hT => ⟨T, ht.trans hT, .refl T⟩, fun _ => congrArg _ ht, hd, hp⟩

theorem Port.MovedBy.refl (P : Port) : P.MovedBy i who p P := .of_tx_eq rfl (fun _ => rfl) (fun _ h => h)

theorem Port.MovedBy.trans (h : P.MovedBy i who p Q) (h' : Q.MovedBy i who p R) : P.MovedBy i who p R where
  ring := fun T hT => by
    obtain ⟨T', hT', hm⟩ := h.ring T hT
    obtain ⟨T'', hT'', hm'⟩ := h'.ring T' hT'
    exact ⟨T'', hT'', hm.trans hm'⟩
  tail := fun hne => (h'.tail hne).trans (h.tail hne)
  drain := fun hne => (h'.drain hne).trans (h.drain hne)
  pending := fun hne hp => h'.pending hne (h.pending hne hp)

/-- A change of one port record. -/
theorem State.movedBy_modifyPort {f : Port → Port} (hf : ∀ P, s.port? q = some P → P.MovedBy i who q (f P))
    (hP : s.port? p = some P) : ∃ Q, (s.modifyPort q f).port? p = some Q ∧ P.MovedBy i who p Q := by
  by_cases hqp : q = p
  · subst hqp
    exact ⟨f P, by simp [hP], hf P hP⟩
  · exact ⟨P, by rw [State.port?_modifyPort_other _ _ hqp, hP], .refl P⟩

theorem State.Update.movedBy (hu : State.Update i who s t) (hP : s.port? p = some P) :
    ∃ Q, t.port? p = some Q ∧ P.MovedBy i who p Q := by
  cases hu with
  | @tx _ T T' hT ho =>
    have hm := ho.movedBy
    refine State.movedBy_modifyPort (fun P hP => ?_) hP
    have htx : P.tx = some T := by simpa [State.tx?, hP] using hT
    refine ⟨fun _ h => ⟨T', rfl, ?_⟩, fun hne => ?_, fun _ => rfl, fun _ h => h⟩
    · cases htx.symm.trans h
      exact hm
    · have htail := not_imp_comm.mp hm.tail fun h => hne h.2
      simp [htx, htail]
  | rx | env | emit | boundary =>
    exact State.movedBy_modifyPort (fun P _ => .of_tx_eq rfl (fun _ => rfl) (fun _ h => h)) hP
  | drain hw => exact State.movedBy_modifyPort (fun P _ => .of_tx_eq rfl (absurd hw) (fun _ h => h)) hP
  | pending hv => exact State.movedBy_modifyPort (fun P _ => .of_tx_eq rfl (fun _ => rfl) fun hne _ => hv hne) hP
  | records hc hp => exact ⟨P, by rw [State.port?_of_ports hp, hP], .refl P⟩

theorem State.Updates.movedBy (hu : State.Updates i who s t) (hP : s.port? p = some P) :
    ∃ Q, t.port? p = some Q ∧ P.MovedBy i who p Q := by
  induction hu with
  | refl => exact ⟨P, hP, .refl P⟩
  | tail _ hstep ih =>
    obtain ⟨Q, hQ, hm⟩ := ih
    obtain ⟨R, hR, hm'⟩ := hstep.movedBy hQ
    exact ⟨R, hR, hm.trans hm'⟩

/-- Every instruction is some agent's to execute (R285). -/
theorem exists_mayExecute (i : Instr) : ∃ a, mayExecute a i = true := by
  cases hp : i.rxPort? with
  | some p => exact ⟨.decode p, by simp [mayExecute_rx hp]⟩
  | none =>
    cases i with
    | rxSendAck p | decodeTaskIteration p => exact ⟨.decode p, decide_eq_true rfl⟩
    | drainWake p | drainIteration p | drainAbort p => exact ⟨.drain p, decide_eq_true rfl⟩
    | signal => exact ⟨.host, rfl⟩
    | crc8Step who | crc16Step who | cbClaim who | cbRelease who | cbFree who | cbWriteRaw who | cbWriteEsc who
    | cbCommit who | cbDiscard who | cbIsEmpty who | cbReadableRun who | cbReadRun who | cbAdvance who
    | genHeaderOnly who | genGeneric who | lookupDec who | lookupGen who | generateAndSend who =>
      exact ⟨who, decide_eq_true rfl⟩
    | _ => cases hp

end moves

/-- Settles O42: each write of an instruction or a step moves only what the executing agent's operation may move. -/
theorem cursorMoves : Obligations.CursorMoves := by
  refine ⟨?instruction, ?step⟩
  case instruction =>
    intro i s t p T h hT
    obtain ⟨a, ha⟩ := exists_mayExecute i
    obtain ⟨P, hP, htx⟩ := State.port?_of_tx? hT
    obtain ⟨Q, hQ, hm⟩ := (exec_updates ha h).movedBy hP
    obtain ⟨T', hT', hmT⟩ := hm.ring T htx
    exact ⟨T', by simp [State.tx?, hQ, hT'], hmT.size, hmT.head, fun hne => (hmT.tail hne).1⟩
  case step =>
    intro s t a rest p P hs h hP
    rcases step_updates h with ⟨hnil, -⟩ | ⟨a', rest', i, hs', hu⟩
    · rw [hs] at hnil; cases hnil
    · rw [hs] at hs'
      cases hs'
      obtain ⟨Q, hQ, hm⟩ := hu.movedBy hP
      refine ⟨Q, hQ, fun hne => ⟨hm.tail hne, hm.drain hne, hm.pending hne⟩, fun T x htx hl hx => ?_⟩
      obtain ⟨T', hT', hmT⟩ := hm.ring T htx
      exact ⟨T', hT', hmT.locked x hl hx⟩

end Sys2Proof.Machine


/-! SUPPORT. The statements of `spec/41_circular_buffer.md` about single operations: what each instruction does to a
ring that its caller may use, which uses are refused, and what the writers, a commit and an advance leave of the
bytes. -/

namespace Sys2Proof.Machine

section ring
variable {s : State} {p : PortId} {who : Agent} {T : Ring}

/-! ### The ring operations on a ring that the caller may use -/

theorem exec_cbClaim_free (hT : s.tx? p = some T) (hl : T.lock = .free) :
    exec (.cbClaim who p) s = .next (s.ringNext who p (T.claim who) .nothing) := by
  show execCbClaim who p s = _
  simp only [execCbClaim, State.withRing_eq hT, hl]
  rfl

theorem exec_cbClaim_held {x : Agent} (hT : s.tx? p = some T) (hl : T.lock = .held x) :
    exec (.cbClaim who p) s = .next (s.waitAt who (.cbClaim who p)) := by
  show execCbClaim who p s = _
  simp only [execCbClaim, State.withRing_eq hT, hl]

theorem exec_cbRelease (hT : s.tx? p = some T) (hl : T.lock = .held who) :
    exec (.cbRelease who p) s = .next (s.ringNext who p T.release .nothing) :=
  State.withHeldRing_eq hT hl

theorem exec_cbWriteRaw (src : ByteSrc) (hT : s.tx? p = some T) (hl : T.lock = .held who) :
    exec (.cbWriteRaw who p src) s =
      .next (s.ringNext who p (T.writeRaw (byteOf T src)) (.prov (T.writeRaw (byteOf T src)).theCall.prov)) :=
  State.withHeldRing_eq hT hl

theorem exec_cbWriteEsc (src : ByteSrc) (hT : s.tx? p = some T) (hl : T.lock = .held who) :
    exec (.cbWriteEsc who p src) s =
      .next (s.ringNext who p (T.writeEsc s.cfg (byteOf T src))
        (.prov (T.writeEsc s.cfg (byteOf T src)).theCall.prov)) :=
  State.withHeldRing_eq hT hl

theorem exec_cbCommit (hT : s.tx? p = some T) (hl : T.lock = .held who) :
    exec (.cbCommit who p) s = .next (s.ringNext who p T.commit.1 (.bool T.commit.2)) :=
  State.withHeldRing_eq hT hl

theorem exec_cbDiscard (hT : s.tx? p = some T) (hl : T.lock = .held who) :
    exec (.cbDiscard who p) s = .next (s.ringNext who p T.dropCall .nothing) :=
  State.withHeldRing_eq hT hl

/-- The lock's holder and the port's drain task may read the cursors (R285). -/
theorem Ring.mayReadCursors_iff : T.mayReadCursors who p = true ↔ T.lock = .held who ∨ who = .drain p := by
  simp [Ring.mayReadCursors, Ring.heldBy]

/-- A query of the cursors answers the agents that may read them, and writes nothing (R134, R140, R141). -/
theorem State.cursorQuery_eq {v : Ring → Ret} (hT : s.tx? p = some T) :
    (s.withRing p fun T => if T.mayReadCursors who p then .next (s.setRet who (v T)) else .refused .notOwner) =
      if T.lock = .held who ∨ who = .drain p then .next (s.setRet who (v T)) else .refused .notOwner := by
  rw [State.withRing_eq hT]
  exact if_congr Ring.mayReadCursors_iff rfl rfl

theorem exec_cbAdvance (n : Nat) (hT : s.tx? p = some T) (hn : 0 < n ∧ n ≤ T.used) :
    exec (.cbAdvance (.drain p) p n) s = .next (s.ringNext (.drain p) p (T.advance n) .nothing) := by
  show execCbAdvance (.drain p) p n s = _
  rw [execCbAdvance, State.withRing_eq hT, if_pos rfl, if_pos (show T.mayAdvance n = true from decide_eq_true hn)]
  rfl

theorem exec_cbReadRun {start : Nat} {bs : List Byte} (hT : s.tx? p = some T)
    (hc : T.isCommittedRun start bs.length = true) (hr : T.readRun p start bs.length = .ok bs) :
    exec (.cbReadRun (.drain p) p start bs.length) s = .next (s.setRet (.drain p) (.bytes bs)) := by
  show execCbReadRun (.drain p) p start bs.length s = _
  rw [execCbReadRun, State.withRing_eq hT, if_pos rfl, if_neg (by simp [hc])]
  simp only [hr]

/-! ### Misuse is refused (R147, R285) -/

theorem State.withHeldRing_refused {k : Ring → Result} (hT : s.tx? p = some T) (hl : T.lock ≠ .held who) :
    s.withHeldRing who p k = .refused .notLockHolder := by
  simp [State.withHeldRing, State.withRing_eq hT, Ring.heldBy, hl]

theorem exec_cbAdvance_notDrainTask (n : Nat) (hT : s.tx? p = some T) (hw : who ≠ .drain p) :
    exec (.cbAdvance who p n) s = .refused .notDrainTask := by
  show execCbAdvance who p n s = _
  rw [execCbAdvance, State.withRing_eq hT, if_neg hw]

theorem exec_cbAdvance_badAdvance {n : Nat} (hT : s.tx? p = some T) (hn : ¬(0 < n ∧ n ≤ T.used)) :
    exec (.cbAdvance (.drain p) p n) s = .refused .badAdvance := by
  show execCbAdvance (.drain p) p n s = _
  rw [execCbAdvance, State.withRing_eq hT, if_pos rfl, Ring.mayAdvance, decide_eq_false hn]
  rfl

theorem exec_cbReadRun_notOwner (start len : Nat) (hT : s.tx? p = some T) (hw : who ≠ .drain p) :
    exec (.cbReadRun who p start len) s = .refused .notOwner := by
  show execCbReadRun who p start len s = _
  rw [execCbReadRun, State.withRing_eq hT, if_neg hw]

theorem exec_cbReadRun_notCommitted {start len : Nat} (hT : s.tx? p = some T) (hn : start + len ≤ T.size)
    (hc : T.isCommittedRun start len = false) :
    exec (.cbReadRun (.drain p) p start len) s = .refused .notCommitted := by
  show execCbReadRun (.drain p) p start len s = _
  rw [execCbReadRun, State.withRing_eq hT, if_pos rfl, if_pos ⟨hn, hc⟩]

/-! ### The provisional writers (R135 to R137) -/

/-- A poisoned count stays so, and nothing else changes. -/
theorem Ring.setProv_poison (hp : T.theCall.prov = .poison) :
    T.setProv .poison = { T with call := some T.theCall } := by
  rw [Ring.setProv, ← hp]

theorem Ring.writeRaw_poison (b : Byte) (hp : T.theCall.prov = .poison) :
    T.writeRaw b = { T with call := some T.theCall } := by
  rw [Ring.writeRaw, hp]
  exact Ring.setProv_poison hp

theorem Ring.writeEsc_poison (c : Cfg) (b : Byte) (hp : T.theCall.prov = .poison) :
    T.writeEsc c b = { T with call := some T.theCall } := by
  rw [Ring.writeEsc, hp]
  exact Ring.setProv_poison hp

theorem Ring.writeRaw_room {n : Nat} (b : Byte) (hp : T.theCall.prov = .count n) (hn : n + 1 ≤ T.free) :
    T.writeRaw b = (T.put n b).setProv (.count (n + 1)) := by
  simp only [Ring.writeRaw, hp, if_neg (Nat.not_lt.mpr hn)]

theorem Ring.writeRaw_full {n : Nat} (b : Byte) (hp : T.theCall.prov = .count n) (hn : T.free < n + 1) :
    T.writeRaw b = T.setProv .poison := by
  simp only [Ring.writeRaw, hp, if_pos hn]

/-- The escape-aware writer without room for all of it (R137). -/
theorem Ring.writeEsc_full {c : Cfg} {b : Byte} {n need : Nat} (hneed : need = if b = c.sync then 2 else 1)
    (hp : T.theCall.prov = .count n) (hn : T.free < n + need) : T.writeEsc c b = T.setProv .poison := by
  subst hneed
  rcases Ring.writeEsc_cases c T b with ⟨he, -⟩ | ⟨m, hb, hm, hle, -⟩ | ⟨m, hb, hm, hle, -⟩
  · exact he
  · obtain rfl := Prov.count.inj (hp.symm.trans hm)
    rw [if_neg hb] at hn
    omega
  · obtain rfl := Prov.count.inj (hp.symm.trans hm)
    rw [if_pos hb] at hn
    omega

/-- The escape-aware writer with room for all of it: the count moves behind the copies of the byte, which stand in the
slots from the old count on, and no other slot changes (R136). -/
theorem Ring.writeEsc_room {c : Cfg} {b : Byte} {n need : Nat} (hneed : need = if b = c.sync then 2 else 1)
    (hp : T.theCall.prov = .count n) (hn : n + need ≤ T.free) : ∃ m : Mem,
      T.writeEsc c b = { T with buf := m, call := some { T.theCall with prov := .count (n + need) } } ∧
      (∀ j, j < need → m.read (T.slot (n + j)) = some b) ∧
      ∀ a, (∀ j, j < need → a ≠ T.slot (n + j)) → m.read a = T.buf.read a := by
  by_cases hb : b = c.sync
  · obtain rfl : need = 2 := hneed.trans (if_pos hb)
    refine ⟨(T.buf.write (T.slot n) b).write (T.slot (n + 1)) b, ?_, fun j hj => ?_, fun a ha => ?_⟩
    · simp only [Ring.writeEsc, hp, if_neg (Nat.not_lt.mpr hn), ← hb]
      rfl
    · obtain rfl | rfl : j = 0 ∨ j = 1 := by omega
      · simp [Mem.read_write]
      · simp [Mem.read_write]
    · exact (Mem.read_write_other _ _ (ha 1 (by omega))).trans (Mem.read_write_other _ _ (ha 0 (by omega)))
  · obtain rfl : need = 1 := hneed.trans (if_neg hb)
    refine ⟨T.buf.write (T.slot n) b, ?_, fun j hj => ?_, fun a ha => ?_⟩
    · simp only [Ring.writeEsc, hp, if_neg hb, if_neg (Nat.not_lt.mpr hn)]
      rfl
    · obtain rfl : j = 0 := by omega
      exact Mem.read_write_same _ _ _
    · exact Mem.read_write_other _ _ (ha 0 (by omega))

theorem Ring.commit_poison (hp : T.theCall.prov = .poison) : T.commit = (T.dropCall, false) := by
  simp only [Ring.commit, hp]

theorem Ring.commit_count {n : Nat} (hp : T.theCall.prov = .count n) :
    T.commit = ({ T.dropCall with head := (T.head + n) % T.size }, true) := by
  simp only [Ring.commit, hp]

/-! ### The committed bytes (R130) -/

/-- A commit puts the bytes behind the write cursor behind the committed ones (R138). -/
theorem Ring.contents_commit (h : T.CursorsIn) {n : Nat} (hn : n ≤ T.free) :
    ({ T.dropCall with head := (T.head + n) % T.size } : Ring).contents =
      T.contents ++ (List.range n).map fun k => T.buf.read (T.slot k) := by
  rw [Ring.contents, Ring.used_commit h hn, List.range_add, List.map_append, List.map_map]
  refine congrArg (T.contents ++ ·) (List.map_congr_left fun k _ => ?_)
  have hslot := Ring.committed_slot h (Nat.le_add_right T.used k)
  rw [Nat.add_sub_cancel_left] at hslot
  exact congrArg T.buf.read hslot

/-- An advance drops the oldest committed bytes (R143). -/
theorem Ring.contents_advance (h : T.CursorsIn) {n : Nat} (hn : n ≤ T.used) :
    (T.advance n).contents = T.contents.drop n := by
  have hused : T.used = n + (T.used - n) := (Nat.add_sub_cancel' hn).symm
  rw [Ring.contents, Ring.used_advance h hn, Ring.contents, hused, List.range_add, List.map_append,
    List.drop_left' (by simp), List.map_map, ← hused]
  refine List.map_congr_left fun k _ => congrArg T.buf.read ?_
  show ((T.tail + n) % T.size + k) % T.size = (T.tail + (n + k)) % T.size
  rw [Nat.mod_add_mod, Nat.add_assoc]

end ring

/-! ### The statements -/

/-- Settles O30: inside the array the remainders are the counts in natural numbers. -/
theorem ringCounts : Obligations.RingCounts := by
  intro T h
  obtain ⟨hh, ht⟩ := id h
  have hN : (T.size : Int) ≠ 0 := by omega
  refine ⟨Int.toNat_of_nonneg (Int.emod_nonneg _ hN), Int.toNat_of_nonneg (Int.emod_nonneg _ hN),
    Ring.used_add_free h, Ring.used_lt h, Ring.free_lt h, decide_eq_true_iff, ?empty, decide_eq_true_iff⟩
  case empty =>
    rw [Ring.isEmpty, decide_eq_true_iff, Ring.used_eq h]
    split <;> omega

/-- Settles O36: the count is written within the free slots, so the commit takes the written slots as they are. -/
theorem commit : Obligations.Commit := by
  intro s who p T hT hI hl
  refine ⟨fun hp => ?poison, fun n hp => ⟨_, rfl, ?step, ?used, ?contents⟩⟩
  case poison =>
    rw [exec_cbCommit hT hl, Ring.commit_poison hp]
    rfl
  case step =>
    rw [exec_cbCommit hT hl, Ring.commit_count hp]
    rfl
  case used => exact Ring.used_commit hI.cursorsIn (hI.theCall hp).1
  case contents => exact Ring.contents_commit hI.cursorsIn (hI.theCall hp).1

/-- Settles O31: the three cases of a claim and a release. -/
theorem ringLock : Obligations.RingLock := fun _ _ _ _ hT =>
  ⟨exec_cbClaim_free hT, fun _ => exec_cbClaim_held hT, exec_cbRelease hT⟩

/-- Settles O32: each query answers an agent that may read the cursors. -/
theorem ringQueries : Obligations.RingQueries := by
  intro s who p T hT ha
  have query (v : Ring → Ret) := (State.cursorQuery_eq (v := v) hT).trans (if_pos ha)
  refine ⟨query fun T => .nat T.free, query fun T => .bool T.isEmpty, fun hle => ?linear, fun hlt => ?wrapped⟩
  case linear =>
    refine (query fun T => .run T.readableRun.1 T.readableRun.2).trans ?_
    simp only [Ring.readableRun, if_pos hle]
  case wrapped =>
    refine (query fun T => .run T.readableRun.1 T.readableRun.2).trans ?_
    simp only [Ring.readableRun, if_neg (Nat.not_le.mpr hlt)]

/-- Settles O33: the three cases of the raw writer. -/
theorem writeRaw : Obligations.WriteRaw := by
  intro s who p T src hT hl
  refine ⟨fun hp => ?poison, fun n hp => ⟨fun hn => ⟨T.buf.write (T.slot n) (byteOf T src), ?room, ?byte, ?others⟩,
    fun hn => ?full⟩⟩
  case poison =>
    rw [exec_cbWriteRaw src hT hl, Ring.writeRaw_poison _ hp, ← hp]
    rfl
  case room =>
    rw [exec_cbWriteRaw src hT hl, Ring.writeRaw_room _ hp hn]
    rfl
  case byte => exact Mem.read_write_same _ _ _
  case others => exact fun a ha => Mem.read_write_other _ _ ha
  case full =>
    rw [exec_cbWriteRaw src hT hl, Ring.writeRaw_full _ hp hn]
    rfl

/-- Settles O34: the three cases of the escape-aware writer, which takes two slots for `SYNC` and one otherwise. -/
theorem writeEsc : Obligations.WriteEsc := by
  intro s who p T src hT hl
  refine ⟨fun hp => ?poison, ?count⟩
  case poison =>
    rw [exec_cbWriteEsc src hT hl, Ring.writeEsc_poison _ _ hp, ← hp]
    rfl
  case count =>
    intro n need _ hp hneed
    refine ⟨fun hn => ?room, fun hn => ?full⟩
    case room =>
      obtain ⟨m, he, hbytes, hothers⟩ := Ring.writeEsc_room hneed hp hn
      refine ⟨m, ?_, hbytes, hothers⟩
      rw [exec_cbWriteEsc src hT hl, he]
      rfl
    case full =>
      rw [exec_cbWriteEsc src hT hl, Ring.writeEsc_full hneed hp hn]
      rfl

/-- Settles O35: the poisoned cases of both writers and of the commit. -/
theorem poisonSticky : Obligations.PoisonSticky := by
  intro s who p T hT hl hp
  refine ⟨?writes, ?commits⟩
  case writes =>
    rintro src i (rfl | rfl)
    · exact (writeRaw s who p T src hT hl).1 hp
    · exact (writeEsc s who p T src hT hl).1 hp
  case commits =>
    rw [exec_cbCommit hT hl, Ring.commit_poison hp]
    rfl

/-- Settles O37: a discard drops the call, which no committed byte depends on. -/
theorem discard : Obligations.Discard := fun _ _ _ T hT hl =>
  ⟨T.dropCall, rfl, exec_cbDiscard hT hl, rfl, rfl⟩

/-- Settles O38: the run is of committed slots, and a read of it answers what the array holds. -/
theorem readRun : Obligations.ReadRun := fun _ _ _ _ _ hT hbytes hn hrun =>
  exec_cbReadRun hT ((Ring.isCommittedRun_iff hn).mpr hrun) (Ring.readRun_holds hbytes hn)

/-- Settles O39: the counts and the committed bytes after an advance. -/
theorem advance : Obligations.Advance := fun _ _ T n hT hc hpos hn =>
  ⟨T.advance n, rfl, exec_cbAdvance n hT ⟨hpos, hn⟩, Ring.free_advance hc hn, Ring.contents_advance hc hn⟩

/-- Settles O40: every misuse stops at the test of the caller, of the count or of the run. -/
theorem misuseRefused : Obligations.MisuseRefused := by
  intro s who p T hT
  refine ⟨fun hl i hi => ?notHolder, fun hw n start len => ?notDrain, fun start len k hn hk hslot => ?notCommitted,
    fun n hn => exec_cbAdvance_badAdvance hT (by omega), fun hl hw => ?notReader⟩
  case notHolder =>
    rcases hi with ⟨src, rfl | rfl⟩ | rfl | rfl | rfl | ⟨cmd, rfl⟩ | ⟨cmd, data, rfl⟩ | ⟨src, rfl⟩ | ⟨src, rfl⟩ <;>
      exact State.withHeldRing_refused hT hl
  case notDrain => exact ⟨exec_cbAdvance_notDrainTask n hT hw, exec_cbReadRun_notOwner start len hT hw⟩
  case notCommitted =>
    refine exec_cbReadRun_notCommitted hT hn (Bool.eq_false_iff.mpr fun hrun => ?_)
    obtain ⟨j, hj, he⟩ := (Ring.isCommittedRun_iff hn).mp hrun k hk
    exact hslot j hj he
  case notReader =>
    have query (v : Ring → Ret) :=
      (State.cursorQuery_eq (s := s) (p := p) (v := v) hT).trans (if_neg (not_or.mpr ⟨hl, hw⟩))
    exact ⟨query fun T => .nat T.free, query fun T => .bool T.isEmpty,
      query fun T => .run T.readableRun.1 T.readableRun.2⟩

end Sys2Proof.Machine


/-! SUPPORT. The statements of `spec/42_generator.md`. A generator call is what `Ring.genHeaderOnly` and
`Ring.genGeneric` make of a ring that the caller holds, and `Ring.GenOut` says what they leave of it. The lines of the
header-only call are ring operations in a row, of which the state keeps the last ring and the last answer. -/

namespace Sys2Proof.Machine

/-! ### The ring functions of both entry points (R162 to R165) -/

section entries
variable {T : Ring} {n : Nat} {bs : List Byte} {out : Ring × Option CapacityCause}

/-- A legal `SYNC` is not zero, for its low seven bits are not (R1). -/
theorem Cfg.sync_ne_zero {c : Cfg} (h : c.wf = true) : c.sync ≠ 0 := by
  intro h0
  simp [Cfg.wf, h0] at h

/-- A call with room for the worst case and for its frame commits the frame (R171). -/
theorem Ring.GenOut.exists_appended (h : T.GenOut out n bs) (hn : n + 6 ≤ T.free) (hb : bs.length ≤ T.free) :
    ∃ T' : Ring, out = (T', none) ∧ T.Appended T' bs ∧ T'.lock = T.lock ∧ T'.call = none :=
  ⟨out.1, Prod.ext rfl (h.ok hn hb).1, (h.ok hn hb).2, h.lock, h.call⟩

/-- A call without room for the doubled bytes leaves them in free slots (R167, R168). -/
theorem Ring.GenOut.exists_onlyStale (h : T.GenOut out n bs) (hn : n + 6 ≤ T.free) (hb : T.free < bs.length) :
    ∃ T' : Ring, out = (T', some .noSpaceLate) ∧ T.OnlyStale T' ∧ T'.lock = T.lock ∧ T'.call = none :=
  ⟨out.1, Prod.ext rfl (h.late hn hb).1, (h.late hn hb).2, h.lock, h.call⟩

/-- The header-only call never fails late: its check covers the doubled bytes too (R162). -/
theorem Ring.genHeaderOnly_appended {c : Cfg} (cmd : Byte) (hwf : c.wf = true) (hc : T.CursorsIn) (hf : 6 ≤ T.free) :
    ∃ T' : Ring, T.genHeaderOnly c cmd = (T', none) ∧ T.Appended T' (wire c.sync (frameOf0 c cmd)) ∧
      T'.lock = T.lock ∧ T'.call = none :=
  (Ring.genHeaderOnly_spec c cmd hc).exists_appended (by omega)
    ((frameOf0_wire_length c cmd (Cfg.sync_ne_zero hwf)).trans hf)

/-- The generic call for any payload that is not too long, the empty one included (R163, R164). -/
theorem Ring.genGeneric_frameFor (c : Cfg) (cmd : Byte) {data : List Byte} (hc : T.CursorsIn)
    (hn : data.length ≤ 255) :
    T.GenOut (T.genGeneric c cmd data) data.length (wire c.sync (frameFor c cmd data)) := by
  by_cases hd : data = []
  · subst hd
    exact Ring.genHeaderOnly_spec c cmd hc
  · rw [frameFor, if_neg hd]
    exact Ring.genGeneric_spec c cmd hc hd hn

/-- A payload of more than 255 bytes is refused before anything is written (R165). -/
theorem Ring.genGeneric_tooLong (c : Cfg) (cmd : Byte) {data : List Byte} (hn : 255 < data.length) :
    T.genGeneric c cmd data = (T.dropCall, some .tooLong) := by
  rw [Ring.genGeneric, if_pos hn]

end entries

/-! ### The instructions of both entry points -/

/-- What a generator call of agent `who` on port `p` leaves: the ring, the event of the call at the end of the port's
trace, and whether it succeeded. Everything else is as it was. -/
def State.genNext (s : State) (who : Agent) (p : PortId) (cmd : Byte) (n : Nat) (out : Ring × Option CapacityCause) :
    State :=
  ((s.setTx p out.1).emit p [genEvent p cmd n out.2]).setRet who (.bool out.2.isNone)

section calls
variable {s : State} {p : PortId} {who : Agent} {T : Ring}

theorem exec_genHeaderOnly (cmd : Byte) (hT : s.tx? p = some T) (hl : T.lock = .held who) :
    exec (.genHeaderOnly who p cmd) s = .next (s.genNext who p cmd 0 (T.genHeaderOnly s.cfg cmd)) :=
  State.withHeldRing_eq hT hl

theorem exec_genGeneric (cmd : Byte) (data : List Byte) (hT : s.tx? p = some T) (hl : T.lock = .held who) :
    exec (.genGeneric who p cmd data) s = .next (s.genNext who p cmd data.length (T.genGeneric s.cfg cmd data)) :=
  State.withHeldRing_eq hT hl

end calls

/-- Settles O43: the call has room for its frame, which it appends. -/
theorem genHeaderOnly : Obligations.GenHeaderOnly := by
  intro s who p cmd T hwf hT hc hl hf
  obtain ⟨T', hout, hleft⟩ := Ring.genHeaderOnly_appended cmd hwf hc hf
  exact ⟨T', by rw [exec_genHeaderOnly cmd hT hl, hout]; rfl, hleft⟩

/-- Settles O44: the call has room for the worst case and for its frame, which it appends. -/
theorem genGeneric : Obligations.GenGeneric := by
  intro s who p cmd data T hT hc hl hn hf hw
  obtain ⟨T', hout, hleft⟩ := (Ring.genGeneric_frameFor s.cfg cmd hc hn).exists_appended hf hw
  exact ⟨T', by rw [exec_genGeneric cmd data hT hl, hout]; rfl, hleft⟩

/-- Settles O45: the three tests in their order; only the last one comes after a write. -/
theorem genFails : Obligations.GenFails := by
  intro s who p cmd data T hT hc hl
  refine ⟨fun hn => ?tooLong, fun hn hf => ?noSpace, fun hf => ?noSpaceHeader, fun hn hf hw => ?late⟩
  case tooLong =>
    rw [exec_genGeneric cmd data hT hl, Ring.genGeneric_tooLong s.cfg cmd hn]
    rfl
  case noSpace =>
    rw [exec_genGeneric cmd data hT hl, (Ring.genGeneric_frameFor s.cfg cmd hc hn).upFront hf]
    rfl
  case noSpaceHeader =>
    rw [exec_genHeaderOnly cmd hT hl, (Ring.genHeaderOnly_spec s.cfg cmd hc).upFront (by omega)]
    rfl
  case late =>
    obtain ⟨T', hout, hleft⟩ := (Ring.genGeneric_frameFor s.cfg cmd hc hn).exists_onlyStale hf hw
    exact ⟨T', by rw [exec_genGeneric cmd data hT hl, hout]; rfl, hleft⟩

/-! ### Ring operations in a row -/

section lines
variable {s t : State} {p : PortId} {who : Agent} {T T' T₀ : Ring} {v v' : Ret} {i : Instr} {is : List Instr}

/-- Of two values returned to an agent, its record keeps the later one. -/
theorem State.setRet_setRet : (s.setRet who v).setRet who v' = s.setRet who v' := by
  rw [State.setRet, State.setRet, State.setCtx_ctx_same, State.setRet, State.setCtx, State.setCtx, putCtx_putCtx]
  rfl

/-- Of two ring operations of an agent on a port, the state keeps the ring and the answer of the later one. -/
theorem State.ringNext_ringNext : (s.ringNext who p T v).ringNext who p T' v' = s.ringNext who p T' v' :=
  calc (s.ringNext who p T v).ringNext who p T' v'
      = (((s.setTx p T).setTx p T').setRet who v).setRet who v' := rfl
    _ = ((s.setTx p T).setTx p T').setRet who v' := State.setRet_setRet
    _ = s.ringNext who p T' v' := congrArg (State.setRet · who v') (State.modifyPort_modifyPort s p _ _)

/-- The ring that a ring operation leaves, on a port that has one. -/
theorem State.ringNext_tx? (hT : s.tx? p = some T₀) : (s.ringNext who p T v).tx? p = some T := by
  obtain ⟨P, hP, -⟩ := State.port?_of_tx? hT
  exact State.setTx_tx? s p T hP

/-- An operation that answers a next state, and the rest of the program from there. -/
theorem execAll_cons_next (h : exec i s = .next t) : execAll (i :: is) s = execAll is t := by
  simp only [execAll, h]

/-- A ring operation behind another one: the program goes on as if it had been the only one. -/
theorem execAll_ringNext_cons
    (h : exec i (s.ringNext who p T v) = .next ((s.ringNext who p T v).ringNext who p T' v')) :
    execAll (i :: is) (s.ringNext who p T v) = execAll is (s.ringNext who p T' v') := by
  rw [execAll_cons_next h, State.ringNext_ringNext]

theorem execAll_crc8Step (src : ByteSrc) (hT : s.tx? p = some T₀) (hl : T.lock = .held who) :
    execAll (.crc8Step who (.gen p src) :: is) (s.ringNext who p T v) =
      execAll is (s.ringNext who p (T.stepCrc8 s.cfg (byteOf T src))
        (.byte (T.stepCrc8 s.cfg (byteOf T src)).theCall.crc8)) :=
  execAll_ringNext_cons (State.withHeldRing_eq (State.ringNext_tx? hT) hl)

theorem execAll_cbWriteRaw (src : ByteSrc) (hT : s.tx? p = some T₀) (hl : T.lock = .held who) :
    execAll (.cbWriteRaw who p src :: is) (s.ringNext who p T v) =
      execAll is (s.ringNext who p (T.writeRaw (byteOf T src)) (.prov (T.writeRaw (byteOf T src)).theCall.prov)) :=
  execAll_ringNext_cons (exec_cbWriteRaw src (State.ringNext_tx? hT) hl)

theorem execAll_cbWriteEsc (src : ByteSrc) (hT : s.tx? p = some T₀) (hl : T.lock = .held who) :
    execAll (.cbWriteEsc who p src :: is) (s.ringNext who p T v) =
      execAll is (s.ringNext who p (T.writeEsc s.cfg (byteOf T src))
        (.prov (T.writeEsc s.cfg (byteOf T src)).theCall.prov)) :=
  execAll_ringNext_cons (exec_cbWriteEsc src (State.ringNext_tx? hT) hl)

theorem execAll_cbCommit (hT : s.tx? p = some T₀) (hl : T.lock = .held who) :
    execAll (.cbCommit who p :: is) (s.ringNext who p T v) =
      execAll is (s.ringNext who p T.commit.1 (.bool T.commit.2)) :=
  execAll_ringNext_cons (exec_cbCommit (State.ringNext_tx? hT) hl)

end lines

/-! ### The lines of the header-only call (R162) -/

/-- The ring of a header-only call before its commit: the four bytes of its frame are written (R162 steps 2 to 5). -/
def Ring.headerOnlyWritten (c : Cfg) (cmd : Byte) (T : Ring) : Ring :=
  let T := (T.beginCall.stepCrc8 c c.sync).writeRaw c.sync
  let T := (T.stepCrc8 c cmd).writeEsc c cmd
  let T := (T.stepCrc8 c 0x00).writeEsc c 0x00
  T.writeEsc c T.theCall.crc8

section headerOnly
variable {s : State} {p : PortId} {who : Agent} {T : Ring}

/-- Past its check, the header-only call writes its frame and finishes. -/
theorem Ring.genHeaderOnly_eq_finish (c : Cfg) (cmd : Byte) (hf : 6 ≤ T.free) :
    T.genHeaderOnly c cmd = (T.headerOnlyWritten c cmd).finish :=
  if_neg (Nat.not_lt.mpr hf)

/-- The end of a call is its commit. -/
theorem Ring.finish_fst (T : Ring) : T.finish.1 = T.commit.1 := by
  cases h : T.commit.2 <;> simp [Ring.finish, h]

/-- A call fails at its end when its commit does (R167). -/
theorem Ring.finish_isNone (T : Ring) : T.finish.2.isNone = T.commit.2 := by
  cases h : T.commit.2 <;> simp [Ring.finish, h]

/-- The lines one by one: a discard opens no call, which the first CRC step does, and each line works on the ring the
line before it left. -/
theorem execAll_genHeaderOnlyLines (cmd : Byte) (hT : s.tx? p = some T) (hl : T.lock = .held who) :
    execAll (genHeaderOnlyLines who p s.cfg.sync cmd) s =
      .next (s.ringNext who p (T.headerOnlyWritten s.cfg cmd).commit.1
        (.bool (T.headerOnlyWritten s.cfg cmd).commit.2)) := by
  rw [genHeaderOnlyLines, execAll_cons_next (exec_cbDiscard hT hl)]
  simp (disch := simp [hl]) only [execAll_crc8Step _ hT, execAll_cbWriteRaw _ hT, execAll_cbWriteEsc _ hT,
    execAll_cbCommit hT]
  rfl

end headerOnly

/-- Settles O46: both leave the ring of the last line with the answer of its commit, which succeeds. -/
theorem genLinesRefine : Obligations.GenLinesRefine := by
  intro s who p cmd T hwf hT hc hl hf
  refine ⟨_, execAll_genHeaderOnlyLines cmd hT hl, ?_⟩
  obtain ⟨T', hout, -⟩ := Ring.genHeaderOnly_appended cmd hwf hc hf
  have hfinish : (T.headerOnlyWritten s.cfg cmd).finish = (T', none) :=
    (Ring.genHeaderOnly_eq_finish s.cfg cmd hf).symm.trans hout
  rw [exec_genHeaderOnly cmd hT hl, hout, ← Ring.finish_fst, ← Ring.finish_isNone, hfinish]
  rfl

end Sys2Proof.Machine

/-! SUPPORT. The statements of `spec/43_decoder.md`. Each branch of a state's handler answers written registers, a
framing error or a completion, and what a decoder operation leaves is said once for each of the three. A logical byte of
a frame, doubled on the wire when it is `SYNC`, is one delivery to the handler of the decoder's state; a frame's bytes
but the last only move the registers, and the last one completes the frame or fails it. -/

namespace Sys2Proof.Machine

/-! ### Bytes in a memory and on the wire -/

section memory

theorem Mem.holds_nil (m : Mem) (start : Nat) : m.Holds start [] := fun _ hk => absurd hk (Nat.not_lt_zero _)

/-- The bytes behind a byte that was written at their start. -/
theorem Mem.holds_cons {m : Mem} {start : Nat} {b : Byte} {bs : List Byte} (hb : m.read start = some b)
    (hbs : m.Holds (start + 1) bs) : m.Holds start (b :: bs) := by
  intro k hk
  cases k with
  | zero => exact hb
  | succ k => simpa [Nat.add_assoc, Nat.add_comm 1 k] using hbs k (Nat.lt_of_succ_lt_succ hk)

/-- Bytes behind the opening one are doubled on the wire, whatever stands before them (R97). -/
theorem wire_cons_append (sync b : Byte) (bs bs' : List Byte) :
    wire sync (b :: bs ++ bs') = wire sync (b :: bs) ++ escapeBytes sync bs' :=
  congrArg (b :: ·) (escapeBytes_append sync bs bs')

end memory

section handlers
variable {c : Cfg} {r : Rx} {b : Byte} {m : MidState}

/-! ### What a decoder operation answers -/

@[simp] theorem RxOut.regs_rx (r : Rx) : (RxOut.regs r).rx = r := rfl
@[simp] theorem RxOut.regs_events (r : Rx) : (RxOut.regs r).events = [] := rfl
@[simp] theorem RxOut.regs_work (r : Rx) : (RxOut.regs r).work = [] := rfl

/-! ### The byte step, by the decoder's state (R180 to R182) -/

theorem rxStep_waitSync (hs : r.state = .waitSync) : rxStep c b r = onWaitSync c b r := by
  simp only [rxStep, hs]

theorem rxStep_rxCmd (hs : r.state = .rxCmd) : rxStep c b r = onRxCmd c b r := by
  simp only [rxStep, hs]

theorem rxStep_mid_sync (hs : r.state = .mid m) : rxStep c c.sync r = onSyncMidframe m r := by
  simp only [rxStep, hs, if_true]

theorem rxStep_mid (hs : r.state = .mid m) (hb : b ≠ c.sync) : rxStep c b r = deliverMid c m b r := by
  simp only [rxStep, hs, if_neg hb]

theorem rxStep_escaped_sync (hs : r.state = .waitSyncOrEscapedByte) :
    rxStep c c.sync r = onEscapeConfirmed c r := by
  simp only [rxStep, hs, if_true]

theorem rxStep_escaped (hs : r.state = .waitSyncOrEscapedByte) (hb : b ≠ c.sync) :
    rxStep c b r = onAbandonRestart c b r := by
  simp only [rxStep, hs, if_neg hb]

/-! ### The handlers, branch by branch (R183 to R194) -/

theorem onWaitSync_sync : onWaitSync c c.sync r = .ok (.regs { r.seeded c with state := .rxCmd }) := if_pos rfl

theorem onWaitSync_other (hb : b ≠ c.sync) : onWaitSync c b r = .ok (.regs r) := if_neg hb

theorem onRxCmd_accepted (hb : cmdIdOf b ≠ 0) : onRxCmd c b r = .ok (.regs (r.accepted c b)) := if_neg hb

theorem onRxCmd_invalid (hb : cmdIdOf b = 0) : onRxCmd c b r = .ok (takeFramingError c .invalidCmd r) := if_pos hb

theorem onRxCrc8_mismatch (hb : b ≠ r.crc8) : onRxCrc8 c b r = .ok (takeFramingError c .crc8Mismatch r) := if_pos hb

theorem onRxCrc8_data (hb : b = r.crc8) (hl : r.dataLength ≠ 0) :
    onRxCrc8 c b r = .ok (.regs { r with crc16 := crc16Step c b r.crc16, state := .mid .rxData }) :=
  (if_neg (not_not.mpr hb)).trans (if_neg hl)

theorem onRxCrc8_complete (hb : b = r.crc8) (hl : r.dataLength = 0) : onRxCrc8 c b r = complete c r :=
  (if_neg (not_not.mpr hb)).trans (if_pos hl)

theorem onRxData_overrun (hc : c.rxDataCap ≤ r.dataCount) :
    onRxData c b r = .ok (takeFramingError c .rxOverrun r) := if_pos hc

theorem onRxData_store (hc : r.dataCount < c.rxDataCap) :
    onRxData c b r = .ok (.regs { r with
      buf := r.buf.write r.dataCount b
      dataCount := r.dataCount + 1
      crc16 := crc16Step c b r.crc16
      state := if r.dataCount + 1 = r.dataLength.toNat then .mid .rxCrc16Hi else r.state }) :=
  if_neg (not_le.mpr hc)

theorem onRxCrc16Hi_mismatch (hb : b ≠ hiOctet r.crc16) :
    onRxCrc16Hi c b r = .ok (takeFramingError c .crc16HiMismatch r) := if_pos hb

theorem onRxCrc16Hi_match (hb : b = hiOctet r.crc16) :
    onRxCrc16Hi c b r = .ok (.regs { r with state := .mid .rxCrc16Lo }) := if_neg (not_not.mpr hb)

theorem onRxCrc16Lo_mismatch (hb : b ≠ loOctet r.crc16) :
    onRxCrc16Lo c b r = .ok (takeFramingError c .crc16LoMismatch r) := if_pos hb

theorem onRxCrc16Lo_match (hb : b = loOctet r.crc16) : onRxCrc16Lo c b r = complete c r := if_neg (not_not.mpr hb)

/-! ### The second byte after a mid-frame `SYNC` (R195, R196) -/

theorem onEscapeConfirmed_of_saved (hm : r.saved = m) :
    onEscapeConfirmed c r = deliverMid c m c.sync { r with state := .mid m } := by
  subst hm
  rfl

theorem onAbandonRestart_accepted (hb : cmdIdOf b ≠ 0) : onAbandonRestart c b r =
    .ok { rx := (r.seeded c).accepted c b, events := [.abandoned r.port], work := [] } := by
  rw [onAbandonRestart, onRxCmd_accepted hb]
  rfl

theorem onAbandonRestart_invalid (hb : cmdIdOf b = 0) : onAbandonRestart c b r = .ok {
    rx := (r.seeded c).failed c, events := [.abandoned r.port, .rxError r.port .invalidCmd], work := [] } := by
  rw [onAbandonRestart, onRxCmd_invalid hb]
  rfl

end handlers

section rows
variable (s : State) (p : PortId) (b : Byte)

/-! ### The rows of the decoder as operations on the registers -/

theorem exec_rxStep : exec (.rxStep p b) s = s.decoder p fun c r => rxStep c b r := rfl
theorem exec_sync : exec (.sync p) s = s.decoder p fun c r => rxStep c c.sync r := rfl
theorem exec_rxByteSyncMidframe : exec (.rxByteSyncMidframe p) s = s.decoder p fun c r => rxStep c c.sync r := rfl
theorem exec_rxWaitSync : exec (.rxWaitSync p b) s = s.decoder p fun c r => onWaitSync c b r := rfl
theorem exec_rxReseed : exec (.rxReseed p) s = s.decoder p fun c r => .ok (.regs (r.seeded c)) := rfl
theorem exec_rxRxCmd : exec (.rxRxCmd p b) s = s.decoder p fun c r => onRxCmd c b r := rfl
theorem exec_rxRxSize : exec (.rxRxSize p b) s = s.decoder p fun c r => onRxSize c b r := rfl
theorem exec_rxRxCrc8 : exec (.rxRxCrc8 p b) s = s.decoder p fun c r => onRxCrc8 c b r := rfl
theorem exec_rxRxData : exec (.rxRxData p b) s = s.decoder p fun c r => onRxData c b r := rfl
theorem exec_rxRxCrc16Hi : exec (.rxRxCrc16Hi p b) s = s.decoder p fun c r => onRxCrc16Hi c b r := rfl
theorem exec_rxRxCrc16Lo : exec (.rxRxCrc16Lo p b) s = s.decoder p fun c r => onRxCrc16Lo c b r := rfl
theorem exec_rxComplete : exec (.rxComplete p) s = s.decoder p complete := rfl
theorem exec_rxFail (cause : RxErrorCause) :
    exec (.rxFail p cause) s = s.decoder p fun c r => .ok (takeFramingError c cause r) := rfl
theorem exec_rxEscapeConfirmed : exec (.rxEscapeConfirmed p) s = s.decoder p onEscapeConfirmed := rfl
theorem exec_rxAbandonRestart : exec (.rxAbandonRestart p b) s = s.decoder p fun c r => onAbandonRestart c b r := rfl
theorem exec_frameHeaderOnly (ack : Bool) (id : BitVec 7) (crc8 : Byte) :
    exec (.frameHeaderOnly p ack id crc8) s =
      s.decoder p fun c r => rxFeed c (wire c.sync (headerBytes c.sync (cmdByte ack id) 0 crc8)) r := rfl
theorem exec_frameWithData (ack : Bool) (id : BitVec 7) (crc8 : Byte) (data : List Byte) (crc16 : Word16) :
    exec (.frameWithData p ack id crc8 data crc16) s =
      s.decoder p fun c r => rxFeed c (wire c.sync (dataFrameBytes c.sync (cmdByte ack id) crc8 data crc16)) r := rfl

/-- The instruction a byte is mid-frame is its delivery to the handler of the state (R182). -/
theorem exec_decodeMid (m : MidState) : exec (decodeMid p b m) s = s.decoder p fun c r => deliverMid c m b r := by
  cases m <;> rfl

end rows

section results
variable {s : State} {p : PortId} {f g : Cfg → Rx → RxResult} {r r' : Rx}

/-! ### What a decoder operation leaves (R189, R190) -/

/-- The next state of a decoder operation, as the statements write it. -/
theorem State.decoder_rxNext {o : RxOut} (hr : s.rx? p = some r) (ho : f s.cfg r = .ok o) :
    s.decoder p f = .next (s.rxNext p o.rx o.events o.work) :=
  State.decoder_eq hr ho

theorem State.decoder_regs (hr : s.rx? p = some r) (h : f s.cfg r = .ok (.regs r')) :
    s.decoder p f = .next (s.rxNext p r' [] []) :=
  State.decoder_rxNext hr h

theorem State.decoder_failed {cause : RxErrorCause} (hr : s.rx? p = some r)
    (h : f s.cfg r = .ok (takeFramingError s.cfg cause r')) (hp : r'.port = p) :
    s.decoder p f = .next (s.rxNext p (r'.failed s.cfg) [.rxError p cause] []) := by
  subst hp
  exact State.decoder_rxNext hr h

theorem State.decoder_completed {data : List Byte} (hr : s.rx? p = some r) (h : f s.cfg r = complete s.cfg r')
    (hp : r'.port = p) (hl : data.length = r'.dataLength.toNat) (hc : data.length ≤ s.cfg.rxDataCap)
    (hd : r'.buf.Holds 0 data) :
    s.decoder p f = .next (s.rxNext p (r'.completed s.cfg) (r'.completedEvents p data) (r'.completedWork p)) := by
  subst hp
  exact State.decoder_rxNext hr (h.trans (complete_holds hl hd (hl ▸ hc)))

/-! ### Two operations with the same answer -/

theorem State.decoder_congr (hr : s.rx? p = some r) (h : f s.cfg r = g s.cfg r) : s.decoder p f = s.decoder p g := by
  simp only [State.decoder, hr, h]

theorem State.setRx_setRx (r₁ r₂ : Rx) : (s.setRx p r₁).setRx p r₂ = s.setRx p r₂ := State.modifyPort_modifyPort s p _ _

/-- An operation on registers that were written before it. -/
theorem State.decoder_setRx (hr : s.rx? p = some r) (h : f s.cfg r = g s.cfg r') :
    s.decoder p f = (s.setRx p r').decoder p g := by
  obtain ⟨P, hP, -⟩ := State.port?_of_rx? hr
  simp only [State.decoder, hr, h, State.setRx_rx? s p r' hP, State.setRx_cfg, State.setRx_setRx]

end results

section states
variable {s : State} {p q : PortId} {r : Rx} {b : Byte} {m : MidState} {P : Port} {a : Agent}

/-! ### The byte step is the row of the decoder's state (R181, R182) -/

theorem exec_rxStep_waitSync (hr : s.rx? p = some r) (hs : r.state = .waitSync) :
    exec (.rxStep p b) s = exec (.rxWaitSync p b) s := by
  rw [exec_rxStep, exec_rxWaitSync]
  exact State.decoder_congr hr (rxStep_waitSync hs)

theorem exec_rxStep_rxCmd (hr : s.rx? p = some r) (hs : r.state = .rxCmd) :
    exec (.rxStep p b) s = exec (.rxRxCmd p b) s := by
  rw [exec_rxStep, exec_rxRxCmd]
  exact State.decoder_congr hr (rxStep_rxCmd hs)

theorem exec_rxStep_mid (hr : s.rx? p = some r) (hs : r.state = .mid m) (hb : b ≠ s.cfg.sync) :
    exec (.rxStep p b) s = exec (decodeMid p b m) s := by
  rw [exec_rxStep, exec_decodeMid]
  exact State.decoder_congr hr (rxStep_mid hs hb)

theorem exec_rxStep_escaped_sync (hr : s.rx? p = some r) (hs : r.state = .waitSyncOrEscapedByte) :
    exec (.rxStep p s.cfg.sync) s = exec (.rxEscapeConfirmed p) s := by
  rw [exec_rxStep, exec_rxEscapeConfirmed]
  exact State.decoder_congr hr (rxStep_escaped_sync hs)

theorem exec_rxStep_escaped (hr : s.rx? p = some r) (hs : r.state = .waitSyncOrEscapedByte) (hb : b ≠ s.cfg.sync) :
    exec (.rxStep p b) s = exec (.rxAbandonRestart p b) s := by
  rw [exec_rxStep, exec_rxAbandonRestart]
  exact State.decoder_congr hr (rxStep_escaped hs hb)

/-- Both rows of the byte `SYNC` are the byte step with it. -/
theorem exec_sync_eq_rxStep (s : State) (p : PortId) : exec (.sync p) s = exec (.rxStep p s.cfg.sync) s := rfl

theorem exec_rxByteSyncMidframe_eq_rxStep (s : State) (p : PortId) :
    exec (.rxByteSyncMidframe p) s = exec (.rxStep p s.cfg.sync) s := rfl

/-! ### What a decoder operation leaves of the rest of the state (R202) -/

/-- Writing the registers that are there, without events and calls, changes nothing. -/
theorem State.rxNext_self (hr : s.rx? p = some r) : s.rxNext p r [] [] = s := by
  obtain ⟨P, hP, hrx⟩ := State.port?_of_rx? hr
  rw [State.rxNext, State.pushWork, State.emit, State.setRx, State.modifyPort_modifyPort]
  refine State.modifyPort_id _ _ _ fun Q hQ => ?_
  rw [hP] at hQ
  cases hQ
  simp [← hrx]

theorem State.pushWork_ctx_other {is : List Instr} {a' : Agent} (h : a ≠ a') :
    (s.pushWork a is).ctx a' = s.ctx a' := by
  cases is with
  | nil => rfl
  | cons i is => simp [State.pushWork, State.setTodo, State.setCtx_ctx, h]

theorem State.rxNext_port? {es : List Event} {work : List Instr} (hP : s.port? p = some P) :
    (s.rxNext p r es work).port? p = some { P with rx := some r, trace := P.trace ++ es } := by
  simp [State.rxNext, State.emit, State.setRx, hP]

theorem State.rxNext_port?_other {es : List Event} {work : List Instr} (h : p ≠ q) :
    (s.rxNext p r es work).port? q = s.port? q := by
  simp [State.rxNext, State.emit, State.setRx, State.port?_modifyPort_other _ _ h]

/-! ### The turn of DecodeTask(p) (R253) -/

theorem fetchWork_nil (x : Fetched) (h : (s.ctx a).todo = []) : fetchWork a x s = x := by
  simp only [fetchWork, h]

end states

section handsOver
variable {c : Cfg} {r : Rx} {b : Byte} {m : MidState} {o : RxOut} {e : Event} {data : List Byte}

/-! ### What hands data over (R199) -/

/-- The event delivers a frame with this data, or calls a handler with it. -/
def Event.HandsOver (data : List Byte) : Event → Prop
  | .delivered _ _ _ d => d = data
  | .handlerCall _ _ _ d => d = data
  | _ => False

/-- A completion hands over `data_length` bytes, each what `RXBUF` holds. -/
theorem complete_handsOver (ho : complete c r = .ok o) (he : e ∈ o.events) (hd : e.HandsOver data) :
    data.length = r.dataLength.toNat ∧ r.buf.Holds 0 data := by
  obtain ⟨data', hl, hh, rfl⟩ := complete_spec ho
  have hdata : data' = data := by
    rcases List.mem_cons.mp he with rfl | he
    · exact hd
    · cases hr : r.handler <;> simp only [hr, List.mem_singleton, List.not_mem_nil] at he
      subst he
      exact hd
  exact hdata ▸ ⟨hl, hh⟩

theorem takeFramingError_not_handsOver {cause : RxErrorCause} (he : e ∈ (takeFramingError c cause r).events) :
    ¬ e.HandsOver data := by
  rw [List.mem_singleton.mp he]
  exact id

/-- Acceptance and its refusal hand nothing over. -/
theorem onRxCmd_not_handsOver (ho : onRxCmd c b r = .ok o) (he : e ∈ o.events) : ¬ e.HandsOver data := by
  unfold onRxCmd at ho
  split at ho <;> cases ho
  · exact takeFramingError_not_handsOver he
  · cases he

/-- Of the mid-frame handlers only `RxCrc8` without data and `RxCrc16Lo` hand data over, on the right check byte. -/
theorem deliverMid_handsOver (ho : deliverMid c m b r = .ok o) (he : e ∈ o.events) (hd : e.HandsOver data) :
    (m = .rxCrc8 ∧ r.dataLength = 0 ∧ b = r.crc8 ∨ m = .rxCrc16Lo ∧ b = loOctet r.crc16) ∧
      data.length = r.dataLength.toNat ∧ r.buf.Holds 0 data := by
  cases m with
  | rxSize => cases ho; cases he
  | rxCrc8 =>
    simp only [deliverMid, onRxCrc8] at ho
    split at ho
    · cases ho; exact absurd hd (takeFramingError_not_handsOver he)
    · next hb =>
      split at ho
      · next hl => exact ⟨.inl ⟨rfl, hl, not_not.mp hb⟩, complete_handsOver ho he hd⟩
      · cases ho; cases he
  | rxData =>
    simp only [deliverMid, onRxData] at ho
    split at ho <;> cases ho
    · exact absurd hd (takeFramingError_not_handsOver he)
    · cases he
  | rxCrc16Hi =>
    simp only [deliverMid, onRxCrc16Hi] at ho
    split at ho <;> cases ho
    · exact absurd hd (takeFramingError_not_handsOver he)
    · cases he
  | rxCrc16Lo =>
    simp only [deliverMid, onRxCrc16Lo] at ho
    split at ho
    · cases ho; exact absurd hd (takeFramingError_not_handsOver he)
    · next hb => exact ⟨.inr ⟨rfl, not_not.mp hb⟩, complete_handsOver ho he hd⟩

/-- The byte step hands data over through the handler of the state it is in or remembers. -/
theorem rxStep_handsOver (ho : rxStep c b r = .ok o) (he : e ∈ o.events) (hd : e.HandsOver data) :
    (r.mid? = some .rxCrc8 ∧ r.dataLength = 0 ∧ b = r.crc8 ∨ r.mid? = some .rxCrc16Lo ∧ b = loOctet r.crc16) ∧
      data.length = r.dataLength.toNat ∧ r.buf.Holds 0 data := by
  cases hs : r.state with
  | waitSync =>
    rw [rxStep_waitSync hs, onWaitSync] at ho
    split at ho <;> cases ho <;> cases he
  | rxCmd =>
    rw [rxStep_rxCmd hs] at ho
    exact absurd hd (onRxCmd_not_handsOver ho he)
  | mid m =>
    simp only [Rx.mid?, hs, Option.some.injEq]
    by_cases hb : b = c.sync
    · rw [hb, rxStep_mid_sync hs] at ho
      cases ho; cases he
    · rw [rxStep_mid hs hb] at ho
      exact deliverMid_handsOver ho he hd
  | waitSyncOrEscapedByte =>
    simp only [Rx.mid?, hs, Option.some.injEq]
    by_cases hb : b = c.sync
    · subst hb
      rw [rxStep_escaped_sync hs] at ho
      exact deliverMid_handsOver (r := { r with state := .mid r.saved }) ho he hd
    · rw [rxStep_escaped hs hb] at ho
      unfold onAbandonRestart at ho
      split at ho
      · cases ho
      · next o' ho' =>
        cases ho
        rcases List.mem_cons.mp he with rfl | he
        · exact hd.elim
        · exact absurd hd (onRxCmd_not_handsOver ho' he)

end handsOver

section feed
variable {c : Cfg} {r r' r'' : Rx} {b : Byte} {m : MidState}

/-! ### Bytes that only move the registers (R110) -/

/-- The bytes `bs` bring the registers from `r` to `r'` without an event or a call, whatever bytes follow. -/
def Rx.Fed (c : Cfg) (bs : List Byte) (r r' : Rx) : Prop := ∀ rest, rxFeed c (bs ++ rest) r = rxFeed c rest r'

theorem Rx.Fed.trans {bs bs' : List Byte} (h : r.Fed c bs r') (h' : r'.Fed c bs' r'') : r.Fed c (bs ++ bs') r'' :=
  fun rest => by rw [List.append_assoc, h, h']

/-- A byte step that only writes registers, outside a handler's call, hands on to the next byte. -/
theorem Rx.Fed.of_rxStep (h : rxStep c b r = .ok (.regs r')) (hn : r'.inHandler = none) : r.Fed c [b] r' := by
  intro rest
  simp only [List.singleton_append, rxFeed, h, RxOut.regs_rx, RxOut.regs_work, RxOut.regs_events, hn, and_self,
    if_true, List.nil_append]
  cases rxFeed c rest r' <;> rfl

/-- One byte is one byte step. -/
theorem rxFeed_singleton (c : Cfg) (b : Byte) (r : Rx) : rxFeed c [b] r = rxStep c b r := by
  simp only [rxFeed, List.map_nil, List.append_nil]
  cases rxStep c b r with
  | error e => rfl
  | ok o =>
    by_cases h : o.rx.inHandler = none ∧ o.work = []
    · simp [RxOut.regs, ← h.2]
    · simp only [if_neg h]

/-! ### A logical byte in a mid-frame state (R97, R181, R195) -/

/-- A lone `SYNC` mid-frame only writes registers (R181). -/
theorem Rx.fed_sync_midframe (hs : r.state = .mid m) (hn : r.inHandler = none) :
    r.Fed c [c.sync] { r with saved := m, state := .waitSyncOrEscapedByte } :=
  .of_rxStep (rxStep_mid_sync hs) hn

/-- The second `SYNC` of a doubled one is a byte `SYNC` for the handler of the state (R195). -/
theorem rxStep_second_sync (hs : r.state = .mid m) :
    rxStep c c.sync { r with saved := m, state := .waitSyncOrEscapedByte } =
      deliverMid c m c.sync { r with saved := m } := by
  simp only [rxStep_escaped_sync, onEscapeConfirmed, ← hs]

/-- The wire form of a last logical byte is its delivery to the handler of the state. -/
theorem rxFeed_escapeBytes_singleton (b : Byte) (hs : r.state = .mid m) (hn : r.inHandler = none) :
    ∃ saved, rxFeed c (escapeBytes c.sync [b]) r = deliverMid c m b { r with saved := saved } := by
  by_cases hb : b = c.sync
  · subst hb
    refine ⟨m, ?_⟩
    calc rxFeed c (escapeBytes c.sync [c.sync]) r
        = rxFeed c ([c.sync] ++ [c.sync]) r := by simp [escapeBytes]
      _ = deliverMid c m c.sync { r with saved := m } := by
        rw [Rx.fed_sync_midframe hs hn, rxFeed_singleton, rxStep_second_sync hs]
  · refine ⟨r.saved, ?_⟩
    rw [escapeBytes, if_neg hb, escapeBytes, rxFeed_singleton, rxStep_mid hs hb]

/-- A logical byte whose delivery only writes registers hands on to the next byte. -/
theorem Rx.fed_escapeBytes_singleton (f : MidState → Rx) (hs : r.state = .mid m) (hn : r.inHandler = none)
    (h : ∀ saved, deliverMid c m b { r with saved := saved } = .ok (.regs (f saved)))
    (hn' : ∀ saved, (f saved).inHandler = none) : ∃ saved, r.Fed c (escapeBytes c.sync [b]) (f saved) := by
  by_cases hb : b = c.sync
  · subst hb
    have hsecond := (rxStep_second_sync hs).trans (h m)
    exact ⟨m, by simpa [escapeBytes] using (Rx.fed_sync_midframe hs hn).trans (.of_rxStep hsecond (hn' m))⟩
  · refine ⟨r.saved, ?_⟩
    rw [escapeBytes, if_neg hb]
    exact .of_rxStep ((rxStep_mid hs hb).trans (h r.saved)) (hn' r.saved)

/-! ### The header of a frame (R90, R183, R185, R187) -/

/-- The registers after the opening `SYNC`, an accepted `CMD` byte and `SIZE`: both accumulators have taken the three
bytes. `saved` is what the escape of `SIZE` may have remembered. -/
def Rx.headerRead (c : Cfg) (cmd size : Byte) (saved : MidState) (r : Rx) : Rx :=
  { r with
    state := .mid .rxCrc8
    saved := saved
    crc8 := crc8Fold c [c.sync, cmd, size]
    crc16 := crc16Fold c [c.sync, cmd, size]
    dataLength := size
    dataCount := 0
    ackRequested := cmdAckOf cmd
    handler := lookupDec c (cmdIdOf cmd).toNat
    cmdId := cmdIdOf cmd }

/-- The first three logical bytes of a frame, up to the check of the header. -/
theorem Rx.fed_header {cmd : Byte} (size : Byte) (hs : r.state = .waitSync) (hn : r.inHandler = none)
    (hcmd : cmd ≠ c.sync) (hid : cmdIdOf cmd ≠ 0) :
    ∃ saved, r.Fed c (wire c.sync [c.sync, cmd, size]) (r.headerRead c cmd size saved) := by
  have hopen : r.Fed c [c.sync] { r.seeded c with state := .rxCmd } :=
    .of_rxStep ((rxStep_waitSync hs).trans onWaitSync_sync) hn
  have haccept : Rx.Fed c [cmd] { r.seeded c with state := .rxCmd } ((r.seeded c).accepted c cmd) :=
    .of_rxStep ((rxStep_rxCmd rfl).trans (onRxCmd_accepted hid)) hn
  obtain ⟨saved, hsize⟩ := Rx.fed_escapeBytes_singleton (c := c) (m := .rxSize) (r := (r.seeded c).accepted c cmd)
    (fun saved => r.headerRead c cmd size saved) rfl hn (fun _ => rfl) (fun _ => hn)
  have hwire : wire c.sync [c.sync, cmd, size] = [c.sync] ++ [cmd] ++ escapeBytes c.sync [size] := by
    simp only [wire, escapeBytes, if_neg hcmd, List.cons_append, List.nil_append]
  exact ⟨saved, hwire ▸ (hopen.trans haccept).trans hsize⟩

/-! ### The data of a frame (R191) -/

/-- One data byte is stored at `data_count`; the last one moves on to `RxCrc16Hi`. -/
theorem Rx.fed_dataByte (b : Byte) (hs : r.state = .mid .rxData) (hn : r.inHandler = none)
    (hc : r.dataCount < c.rxDataCap) :
    ∃ saved, r.Fed c (escapeBytes c.sync [b]) { r with
      state := if r.dataCount + 1 = r.dataLength.toNat then .mid .rxCrc16Hi else r.state
      saved := saved
      buf := r.buf.write r.dataCount b
      crc16 := crc16Step c b r.crc16
      dataCount := r.dataCount + 1 } :=
  Rx.fed_escapeBytes_singleton _ hs hn (fun saved => onRxData_store (r := { r with saved := saved }) hc) fun _ => hn

/-- The data bytes of a frame stand in `RXBUF` from `data_count` on and nowhere else, and the CRC-16 has taken each. -/
theorem Rx.fed_data {data : List Byte} (hd : data ≠ []) (hs : r.state = .mid .rxData) (hn : r.inHandler = none)
    (hl : r.dataCount + data.length = r.dataLength.toNat) (hc : r.dataLength.toNat ≤ c.rxDataCap) :
    ∃ (saved : MidState) (buf : Mem),
      r.Fed c (escapeBytes c.sync data) { r with
        state := .mid .rxCrc16Hi
        saved := saved
        buf := buf
        crc16 := data.foldl (fun acc b => crc16Step c b acc) r.crc16
        dataCount := r.dataLength.toNat } ∧
      buf.Holds r.dataCount data ∧
      ∀ a, a < r.dataCount ∨ r.dataLength.toNat ≤ a → buf.read a = r.buf.read a := by
  induction data generalizing r with
  | nil => exact absurd rfl hd
  | cons b data ih =>
    rw [List.length_cons] at hl
    obtain ⟨saved₁, hbyte⟩ := Rx.fed_dataByte (c := c) b hs hn (by omega)
    have hwritten := r.buf.read_write_same r.dataCount b
    by_cases hlast : data = []
    · subst hlast
      have hend : r.dataCount + 1 = r.dataLength.toNat := by simpa using hl
      simp only [if_pos hend] at hbyte
      refine ⟨_, _, hend ▸ hbyte, Mem.holds_cons hwritten (Mem.holds_nil _ _), ?_⟩
      intro a ha
      exact Mem.read_write_other _ _ (by omega)
    · have hmore : r.dataCount + 1 ≠ r.dataLength.toNat := by
        have := List.length_pos_iff.mpr hlast
        omega
      simp only [if_neg hmore] at hbyte
      obtain ⟨saved, buf, hfed, hholds, hrest⟩ := ih hlast (r := { r with
        saved := saved₁
        buf := r.buf.write r.dataCount b
        crc16 := crc16Step c b r.crc16
        dataCount := r.dataCount + 1 }) hs hn (by simp only; omega) hc
      refine ⟨saved, buf, ?_, ?_, ?_⟩
      · rw [escapeBytes_cons]
        exact hbyte.trans hfed
      · exact Mem.holds_cons ((hrest _ (.inl (by simp))).trans hwritten) hholds
      · intro a ha
        rw [hrest a (by simp only; omega)]
        exact Mem.read_write_other _ _ (by omega)

/-! ### Whole frames -/

/-- A header-only frame is the check of its header's accumulator (R188). -/
theorem rxFeed_headerOnly {cmd : Byte} (crc8 : Byte) (hs : r.state = .waitSync) (hn : r.inHandler = none)
    (hcmd : cmd ≠ c.sync) (hid : cmdIdOf cmd ≠ 0) :
    ∃ saved, rxFeed c (wire c.sync (headerBytes c.sync cmd 0 crc8)) r =
      onRxCrc8 c crc8 (r.headerRead c cmd 0 saved) := by
  obtain ⟨saved, hheader⟩ := Rx.fed_header 0 hs hn hcmd hid
  have hwire : wire c.sync (headerBytes c.sync cmd 0 crc8) =
      wire c.sync [c.sync, cmd, 0] ++ escapeBytes c.sync [crc8] :=
    wire_cons_append c.sync c.sync [cmd, 0] [crc8]
  obtain ⟨saved₁, hcheck⟩ := rxFeed_escapeBytes_singleton (c := c) (r := r.headerRead c cmd 0 saved) crc8 rfl hn
  exact ⟨saved₁, by rw [hwire, hheader, hcheck]; rfl⟩

/-- The registers in `RxData`, with the right header of a data frame behind them. -/
def Rx.headerChecked (c : Cfg) (cmd size : Byte) (saved : MidState) (r : Rx) : Rx :=
  { r.headerRead c cmd size saved with
    state := .mid .rxData
    crc16 := crc16Fold c (headerBytes c.sync cmd size (crc8Fold c [c.sync, cmd, size])) }

/-- The right header of a frame with data (R188). -/
theorem Rx.fed_headerChecked {cmd size : Byte} (hs : r.state = .waitSync) (hn : r.inHandler = none)
    (hcmd : cmd ≠ c.sync) (hid : cmdIdOf cmd ≠ 0) (hsize : size ≠ 0) :
    ∃ saved, r.Fed c (wire c.sync (headerBytes c.sync cmd size (crc8Fold c [c.sync, cmd, size])))
      (r.headerChecked c cmd size saved) := by
  obtain ⟨saved, hheader⟩ := Rx.fed_header size hs hn hcmd hid
  obtain ⟨saved₁, hcheck⟩ := Rx.fed_escapeBytes_singleton (c := c) (m := .rxCrc8) (r := r.headerRead c cmd size saved)
    (fun saved => r.headerChecked c cmd size saved) rfl hn
    (fun saved => onRxCrc8_data (r := r.headerRead c cmd size saved) rfl hsize) (fun _ => hn)
  have hwire : wire c.sync (headerBytes c.sync cmd size (crc8Fold c [c.sync, cmd, size])) =
      wire c.sync [c.sync, cmd, size] ++ escapeBytes c.sync [crc8Fold c [c.sync, cmd, size]] :=
    wire_cons_append c.sync c.sync [cmd, size] _
  exact ⟨saved₁, hwire ▸ hheader.trans hcheck⟩

/-- The registers in `RxCrc16Hi`, with the right header of a data frame and its data behind them. -/
def Rx.dataRead (c : Cfg) (cmd : Byte) (data : List Byte) (saved : MidState) (buf : Mem) (r : Rx) : Rx :=
  { r.headerRead c cmd (sizeByte data) saved with
    state := .mid .rxCrc16Hi
    buf := buf
    crc16 := frameCrc16 c cmd data
    dataCount := (sizeByte data).toNat }

/-- The right header and the data of a frame: the data stands in `RXBUF` from its start on and nowhere else. -/
theorem Rx.fed_dataRead {cmd : Byte} {data : List Byte} (hs : r.state = .waitSync) (hn : r.inHandler = none)
    (hcmd : cmd ≠ c.sync) (hid : cmdIdOf cmd ≠ 0) (hd : data ≠ []) (hl : data.length ≤ 255)
    (hc : data.length ≤ c.rxDataCap) :
    ∃ (saved : MidState) (buf : Mem),
      r.Fed c (wire c.sync (headerBytes c.sync cmd (sizeByte data) (headerCrc8 c cmd data) ++ data))
        (r.dataRead c cmd data saved buf) ∧
      buf.Holds 0 data ∧ ∀ a, data.length ≤ a → buf.read a = r.buf.read a := by
  have hsize := toNat_sizeByte hl
  have hsize0 : sizeByte data ≠ 0 := by
    intro h0
    rw [h0] at hsize
    exact hd (List.length_eq_zero_iff.mp hsize.symm)
  obtain ⟨saved₁, hheader⟩ := Rx.fed_headerChecked hs hn hcmd hid hsize0
  obtain ⟨saved₂, buf, hdata, hholds, hrest⟩ := Rx.fed_data (c := c) hd
    (r := r.headerChecked c cmd (sizeByte data) saved₁) rfl hn ((Nat.zero_add _).trans hsize.symm) (hsize.trans_le hc)
  have hcrc16 : frameCrc16 c cmd data = data.foldl (fun acc b => crc16Step c b acc)
      (r.headerChecked c cmd (sizeByte data) saved₁).crc16 := List.foldl_append ..
  have hwire : wire c.sync (headerBytes c.sync cmd (sizeByte data) (headerCrc8 c cmd data) ++ data) =
      wire c.sync (headerBytes c.sync cmd (sizeByte data) (headerCrc8 c cmd data)) ++ escapeBytes c.sync data :=
    wire_cons_append c.sync c.sync [cmd, sizeByte data, headerCrc8 c cmd data] data
  rw [← hcrc16] at hdata
  exact ⟨saved₂, buf, hwire ▸ hheader.trans hdata, hholds, fun a ha => hrest a (.inr (hsize.trans_le ha))⟩

/-- A frame with data whose check bytes before the last are right is the check of its CRC-16's low octet, with the data
in `RXBUF` from its start on and nowhere else (R188, R191, R193, R194). -/
theorem rxFeed_dataFrame {cmd : Byte} {data : List Byte} (lo : Byte) (hs : r.state = .waitSync)
    (hn : r.inHandler = none) (hcmd : cmd ≠ c.sync) (hid : cmdIdOf cmd ≠ 0) (hd : data ≠ []) (hl : data.length ≤ 255)
    (hc : data.length ≤ c.rxDataCap) :
    ∃ (saved : MidState) (buf : Mem),
      rxFeed c (wire c.sync (dataFrameBytes c.sync cmd (headerCrc8 c cmd data) data
        (hiOctet (frameCrc16 c cmd data) ++ lo))) r =
          onRxCrc16Lo c lo { r.dataRead c cmd data saved buf with state := .mid .rxCrc16Lo } ∧
      buf.Holds 0 data ∧ ∀ a, data.length ≤ a → buf.read a = r.buf.read a := by
  obtain ⟨saved, buf, hdata, hholds, hrest⟩ := Rx.fed_dataRead hs hn hcmd hid hd hl hc
  obtain ⟨saved₁, hhi⟩ := Rx.fed_escapeBytes_singleton (c := c) (m := .rxCrc16Hi)
    (r := r.dataRead c cmd data saved buf)
    (fun saved => { r.dataRead c cmd data saved buf with state := .mid .rxCrc16Lo }) rfl hn
    (fun saved => onRxCrc16Hi_match (b := hiOctet (frameCrc16 c cmd data)) (r := r.dataRead c cmd data saved buf) rfl)
    (fun _ => hn)
  obtain ⟨saved₂, hlo⟩ := rxFeed_escapeBytes_singleton (c := c) (m := .rxCrc16Lo)
    (r := { r.dataRead c cmd data saved₁ buf with state := .mid .rxCrc16Lo }) lo rfl hn
  have hwire : wire c.sync (dataFrameBytes c.sync cmd (headerCrc8 c cmd data) data
      (hiOctet (frameCrc16 c cmd data) ++ lo)) =
      wire c.sync (headerBytes c.sync cmd (sizeByte data) (headerCrc8 c cmd data) ++ data) ++
        escapeBytes c.sync [hiOctet (frameCrc16 c cmd data)] ++ escapeBytes c.sync [lo] := by
    simp only [dataFrameBytes, headerBytes, wire, List.cons_append, List.nil_append, hiOctet_append, loOctet_append,
      ← escapeBytes_append, List.append_assoc]
  exact ⟨saved₂, buf, by rw [hwire, hdata.trans hhi, hlo]; rfl, hholds, hrest⟩

end feed

/-! ### Frames with right check bytes (R201) -/

section frames
variable {c : Cfg} {r r' : Rx} {cmd : Byte} {data : List Byte}

/-- The registers `r'` hold the header and the data of a frame that arrived at `r`; the counters have not moved. -/
structure Rx.FrameRead (c : Cfg) (cmd : Byte) (data : List Byte) (r r' : Rx) : Prop where
  port : r'.port = r.port
  success : r'.rxSuccess = r.rxSuccess
  error : r'.rxError = r.rxError
  cmdId : r'.cmdId = cmdIdOf cmd
  ackRequested : r'.ackRequested = cmdAckOf cmd
  handler : r'.handler = lookupDec c (cmdIdOf cmd).toNat
  length : r'.dataLength.toNat = data.length
  holds : r'.buf.Holds 0 data
  others : ∀ a, data.length ≤ a → r'.buf.read a = r.buf.read a

/-- A header-only frame with its right CRC-8 is completed. -/
theorem rxFeed_headerOnly_complete (hs : r.state = .waitSync) (hn : r.inHandler = none) (hcmd : cmd ≠ c.sync)
    (hid : cmdIdOf cmd ≠ 0) :
    ∃ r', rxFeed c (wire c.sync (headerBytes c.sync cmd 0 (headerCrc8 c cmd []))) r = complete c r' ∧
      r.FrameRead c cmd [] r' := by
  obtain ⟨saved, hfeed⟩ := rxFeed_headerOnly (headerCrc8 c cmd []) hs hn hcmd hid
  refine ⟨r.headerRead c cmd 0 saved, hfeed.trans (onRxCrc8_complete rfl rfl), ?_⟩
  exact ⟨rfl, rfl, rfl, rfl, rfl, rfl, rfl, Mem.holds_nil _ _, fun _ _ => rfl⟩

/-- A frame with data and its right CRCs is completed. -/
theorem rxFeed_dataFrame_complete (hs : r.state = .waitSync) (hn : r.inHandler = none) (hcmd : cmd ≠ c.sync)
    (hid : cmdIdOf cmd ≠ 0) (hd : data ≠ []) (hl : data.length ≤ 255) (hc : data.length ≤ c.rxDataCap) :
    ∃ r', rxFeed c (wire c.sync (dataFrameBytes c.sync cmd (headerCrc8 c cmd data) data (frameCrc16 c cmd data))) r =
        complete c r' ∧
      r.FrameRead c cmd data r' := by
  obtain ⟨saved, buf, hfeed, hholds, hothers⟩ :=
    rxFeed_dataFrame (loOctet (frameCrc16 c cmd data)) hs hn hcmd hid hd hl hc
  rw [hiOctet_append_loOctet] at hfeed
  refine ⟨_, hfeed.trans (onRxCrc16Lo_match rfl), ?_⟩
  exact ⟨rfl, rfl, rfl, rfl, rfl, rfl, toNat_sizeByte hl, hholds, hothers⟩

/-- What the completion of a frame that was read hands over. -/
theorem Rx.FrameRead.completedEvents {ack : Bool} {id : BitVec 7} (h : r.FrameRead c (cmdByte ack id) data r')
    (p : PortId) : r'.completedEvents p data = .delivered p id ack data ::
      (match lookupDec c id.toNat with
       | some h => [.handlerCall p id h data]
       | none => []) := by
  have hhandler : r'.handler = lookupDec c id.toNat := by rw [h.handler, cmdIdOf_cmdByte]
  cases hlookup : lookupDec c id.toNat <;>
    simp [Rx.completedEvents, h.cmdId, h.ackRequested, hhandler, hlookup]

end frames

/-! ### The ACK (R197) -/

section ack
variable {s : State} {p : PortId} {self : Instr} {who : Agent} {cmd : Byte} {data bs : List Byte}
  {payload : Option (List Byte)} {T T' : Ring} {gen : Generator}

/-- A legal table answers a query of id 1 with the header-only entry point (R222). -/
theorem Cfg.lookupGen_ack {c : Cfg} (h : c.wf = true) : lookupGen c 1 = some .headerOnly := by
  simp only [Cfg.wf, Cfg.fixedCells, Bool.and_eq_true, decide_eq_true_eq, beq_iff_eq] at h
  have hlen : 1 < c.tableLen := by omega
  have hcell : c.genTable[1]? = some (some .headerOnly) := by tauto
  simp [lookupGen, tableQuery, hlen, hcell]

theorem State.generateAndSend_noBuffer (hT : s.tx? p = none) :
    s.generateAndSend self who cmd p data = .next (s.setRet who (.bool false)) := by
  simp only [State.generateAndSend, hT]

theorem State.generateAndSend_held {x : Agent} (hT : s.tx? p = some T)
    (hg : lookupGen s.cfg (cmdIdOf cmd).toNat = some gen) (hl : T.lock = .held x) :
    s.generateAndSend self who cmd p data = .next (s.waitAt who self) := by
  simp only [State.generateAndSend, hT, hg, hl]

theorem State.generateAndSend_free (hT : s.tx? p = some T)
    (hg : lookupGen s.cfg (cmdIdOf cmd).toNat = some gen) (hl : T.lock = .free) :
    s.generateAndSend self who cmd p data =
      .next ((s.payloadTaken gen).generateAndRelease who cmd p (s.payload (cmdIdOf cmd).toNat data gen) T) := by
  simp only [State.generateAndSend, hT, hg, hl]

/-- A call that succeeds leaves its frame in the ring and the signal to make (R241 steps 5 to 7). -/
theorem State.generateAndRelease_ok (h : (T.claim who).generate s.cfg cmd payload = (T', none)) :
    s.generateAndRelease who cmd p payload T =
      (((s.setTx p T'.release).emit p [.genOk p cmd (payloadLength payload)]).setRet who (.bool true)).pushWork who
        [.signal p] := by
  simp only [State.generateAndRelease, h, genEvent, Option.isNone_none, if_true]

/-- A call that fails leaves no signal to make. -/
theorem State.generateAndRelease_fail {cause : CapacityCause}
    (h : (T.claim who).generate s.cfg cmd payload = (T', some cause)) :
    s.generateAndRelease who cmd p payload T =
      ((s.setTx p T'.release).emit p [.genFail p cmd (payloadLength payload) cause]).setRet who (.bool false) := by
  simp only [State.generateAndRelease, h, genEvent, Option.isNone_some, Bool.false_eq_true, if_false, State.pushWork]

/-- Between the claim and the release of a call a ring is the ring itself, to what the call leaves. -/
theorem Ring.Appended.release (h : (T.claim who).Appended T' bs) : T.Appended T'.release bs :=
  ⟨h.size, h.head, h.tail, h.bytes, h.others⟩

theorem Ring.onlyStale_claim_dropCall_release (T : Ring) (who : Agent) : T.OnlyStale (T.claim who).dropCall.release :=
  ⟨rfl, rfl, rfl, fun _ _ => rfl⟩

/-- Without room for the worst case the header-only call leaves the ring (R161). -/
theorem Ring.genHeaderOnly_upFront (c : Cfg) (cmd : Byte) (hf : T.free < 6) :
    T.genHeaderOnly c cmd = (T.dropCall, some .noSpaceUpFront) := if_pos hf

end ack

end Sys2Proof.Machine

namespace Sys2Proof.Machine.Decoder

/-- Settles O23: a frame with its right CRCs, fed byte by byte, ends in a completion with its header and its data in the
registers, whichever of the two frame rows it is. -/
theorem roundTrip : Obligations.RoundTrip := by
  intro s p r ack id data _ hr hinv hs hn hid hcmd hl hc i hi
  have hid' : cmdIdOf (cmdByte ack id) ≠ 0 := by rwa [cmdIdOf_cmdByte]
  obtain ⟨r', f, hexec, hfeed, hread⟩ : ∃ r' f, exec i s = s.decoder p f ∧ f s.cfg r = complete s.cfg r' ∧
      r.FrameRead s.cfg (cmdByte ack id) data r' := by
    by_cases hd : data = []
    · subst hi hd
      obtain ⟨r', hfeed, hread⟩ := rxFeed_headerOnly_complete hs hn hcmd hid'
      exact ⟨r', _, exec_frameHeaderOnly s p ack id _, hfeed, hread⟩
    · rw [if_neg hd] at hi
      subst hi
      obtain ⟨r', hfeed, hread⟩ := rxFeed_dataFrame_complete hs hn hcmd hid' hd hl hc
      exact ⟨r', _, exec_frameWithData s p ack id _ data _, hfeed, hread⟩
  have hnext := State.decoder_completed hr hfeed (hread.port.trans hinv.port_eq) hread.length.symm hc hread.holds
  have hack : r'.ackRequested = ack := hread.ackRequested.trans (cmdAckOf_cmdByte ack id)
  have hwork : r'.completedWork p = if ack then [.rxSendAck p] else [] := by rw [Rx.completedWork, hack]
  have hcmdId : r'.cmdId = id := hread.cmdId.trans (cmdIdOf_cmdByte ack id)
  have hhandler : r'.handler = lookupDec s.cfg id.toNat := by rw [hread.handler, cmdIdOf_cmdByte]
  refine ⟨r'.completed s.cfg, ?_, rfl, ?_, hread.error, hread.port, hhandler, hcmdId, hack, hread.length, hread.holds,
    hread.others⟩
  · exact (hexec.trans hnext).trans (congrArg Host.Outcome.next
      (congrArg₂ (s.rxNext p (r'.completed s.cfg)) (hread.completedEvents p) hwork))
  · exact congrArg (fun n => (n + 1) % 2 ^ s.cfg.cntW) hread.success

/-- Settles O24: the wrong check byte is the last byte of the frame, and it is compared with the right one. -/
theorem corruptFrame : Obligations.CorruptFrame := by
  intro s p r ack id _ hr hinv hs hn hid hcmd
  have hid' : cmdIdOf (cmdByte ack id) ≠ 0 := by rwa [cmdIdOf_cmdByte]
  refine ⟨fun x hx _ => ?headerOnly, fun data lo hd hl hc hlo _ => ?withData⟩
  case headerOnly =>
    obtain ⟨saved, hfeed⟩ := rxFeed_headerOnly x hs hn hcmd hid'
    rw [exec_frameHeaderOnly]
    exact ⟨_, State.decoder_failed hr (hfeed.trans (onRxCrc8_mismatch hx)) hinv.port_eq, rfl, rfl, rfl, rfl⟩
  case withData =>
    obtain ⟨saved, buf, hfeed, -, -⟩ := rxFeed_dataFrame lo hs hn hcmd hid' hd hl hc
    rw [exec_frameWithData]
    exact ⟨_, State.decoder_failed hr (hfeed.trans (onRxCrc16Lo_mismatch hlo)) hinv.port_eq, rfl, rfl, rfl⟩

/-- Settles O7, by the decoder's state: the row a byte is in a state is the handler the byte step delivers it to. -/
theorem byteRowsAreByteSteps : Obligations.ByteRowsAreByteSteps := by
  intro s p r b i hr hi
  cases hi
  cases hs : r.state with
  | waitSync =>
    simp only [decodeByte, State.decodeCtx, hs]
    split
    · next hb => rw [hb, exec_sync_eq_rxStep]
    · exact (exec_rxStep_waitSync hr hs).symm
  | rxCmd =>
    simp only [decodeByte, State.decodeCtx, hs]
    rw [cmdRowsAreByteSteps _ p _ _ s (cmdOperands_cmdInstr ..), cmdByte_cmdAckOf_cmdIdOf]
  | mid m =>
    simp only [decodeByte, State.decodeCtx, hs]
    split
    · next hb => rw [hb, exec_rxByteSyncMidframe_eq_rxStep]
    · next hb => exact (exec_rxStep_mid hr hs hb).symm
  | waitSyncOrEscapedByte =>
    simp only [decodeByte, State.decodeCtx, hs]
    split
    · next hb => rw [hb, exec_rxStep_escaped_sync hr hs]
    · next hb => exact (exec_rxStep_escaped hr hs hb).symm

/-- Settles O21: from coherent registers the byte step answers, and it answers such registers. -/
theorem byteStepTotal : Obligations.ByteStepTotal := by
  intro s p r b hr hinv hcoh
  obtain ⟨o, ho, hoinv, hocoh⟩ := rxStep_total hinv hcoh b
  rw [exec_rxStep]
  exact ⟨o.rx, o.events, o.work, State.decoder_rxNext hr ho, hoinv.rx, hocoh⟩

/-- Settles O22: the events of a byte step are those its operation answers, and only a completion hands data over. -/
theorem noPartialDelivery : Obligations.NoPartialDelivery := by
  intro s t p P Q r b hP hrx hexec hQ q id ack h data hmem
  rw [exec_rxStep] at hexec
  obtain ⟨r', o, hr', ho, rfl⟩ := State.decoder_next hexec
  obtain rfl : r = r' := by simpa [State.rx?, hP, hrx] using hr'
  obtain rfl : _ = Q := Option.some.inj ((State.rxNext_port? hP).symm.trans hQ)
  simp only [List.drop_left] at hmem
  rcases hmem with hmem | hmem <;> exact rxStep_handsOver ho hmem rfl

/-- Settles O25: a query of id 1 answers the header-only entry point, which decides by the free bytes. -/
theorem sendAck : Obligations.SendAck := by
  intro s p hwf
  refine ⟨fun hT => State.generateAndSend_noBuffer hT, fun T hT hc => ?_⟩
  have hgen : lookupGen s.cfg (cmdIdOf ackCmd).toNat = some .headerOnly := Cfg.lookupGen_ack hwf
  refine ⟨fun x hl => State.generateAndSend_held hT hgen hl, fun hl hf => ?fits, fun hl hf => ?full⟩
  case fits =>
    obtain ⟨T', hout, happ, -, -⟩ := Ring.genHeaderOnly_appended (T := T.claim (.decode p)) ackCmd hwf hc hf
    exact ⟨T'.release, (State.generateAndSend_free hT hgen hl).trans (congrArg _ (State.generateAndRelease_ok hout)),
      happ.release, rfl, rfl⟩
  case full =>
    have hout := Ring.genHeaderOnly_upFront (T := T.claim (.decode p)) s.cfg ackCmd hf
    exact ⟨_, (State.generateAndSend_free hT hgen hl).trans (congrArg _ (State.generateAndRelease_fail hout)),
      Ring.onlyStale_claim_dropCall_release T _, rfl, rfl⟩

/-- Settles O26: an instruction of the receiver is a decoder operation, which writes registers, a trace and one agent's
record. -/
theorem decoderFrame : Obligations.DecoderFrame := by
  intro i p s t hi hexec
  obtain ⟨f, hf⟩ := exec_of_rxPort? hi
  obtain ⟨r, o, -, -, rfl⟩ := State.decoder_next (hf s ▸ hexec)
  refine ⟨by simp, by simp, by simp, fun a ha => ?_, fun q hq => State.rxNext_port?_other hq.symm, fun P hP => ?_⟩
  · rw [State.pushWork_ctx_other ha.symm]
    rfl
  · exact ⟨_, State.rxNext_port? hP, rfl⟩

/-- Settles O4: outside a handler and with no call to make, the task's turn is the byte it takes. -/
theorem stepRunsByte : Obligations.StepRunsByte := by
  intro s p rest r b input i hs hr hn hw hin hi
  have hturned : State.turned s rest = { s with sched := rest } := rfl
  have hstep : step s = turn (.decode p) (s.turned rest) := by simp only [step, hs, State.turned]
  have hfetch : fetch (.decode p) (s.turned rest) = fetchByte p r (s.turned rest) := by
    simp only [fetch, fetchDecode, State.turned_rx?, hr, hn]
    exact fetchWork_nil _ hw
  have hbyte : fetchByte p r (s.turned rest) = .run i ((s.turned rest).takeInput p input) := by
    have hi' : decode ((s.turned rest).decodeCtx p r) [b] = .instr i := hi
    simp only [fetchByte, State.turned_env, hin, hi']
  rw [hstep, turn, hfetch, hbyte, hturned]

/-- Settles O9: both rows of the byte and the byte step are the handler of the state. -/
theorem waitSync : Obligations.WaitSync := by
  intro s p r hr hs
  refine ⟨fun b hb => ?other, fun i hi => ?sync⟩
  case other =>
    have hnext : exec (.rxWaitSync p b) s = .next s := by
      rw [exec_rxWaitSync, State.decoder_regs hr (onWaitSync_other hb), State.rxNext_self hr]
    exact ⟨hnext, (exec_rxStep_waitSync hr hs).trans hnext⟩
  case sync =>
    have hrow : exec i s = exec (.rxWaitSync p s.cfg.sync) s := by
      rcases hi with rfl | rfl | rfl
      · rw [exec_sync_eq_rxStep, exec_rxStep_waitSync hr hs]
      · rfl
      · rw [exec_rxStep_waitSync hr hs]
    rw [hrow, exec_rxWaitSync]
    exact State.decoder_regs hr onWaitSync_sync

/-- Settles O10: the row writes the seeded registers. -/
theorem reseed : Obligations.Reseed := by
  intro s p r hr
  rw [exec_rxReseed]
  exact State.decoder_regs hr rfl

/-- Settles O11: the four clauses are two branches of one handler, of which every `CMD` instruction is a byte step. -/
theorem rxCmd : Obligations.RxCmd := by
  intro s p r hr hp hs
  have accepted {b : Byte} (hb : cmdIdOf b ≠ 0) :
      exec (.rxRxCmd p b) s = .next (s.rxNext p (r.accepted s.cfg b) [] []) := by
    rw [exec_rxRxCmd]
    exact State.decoder_regs hr (onRxCmd_accepted hb)
  have invalid {b : Byte} (hb : cmdIdOf b = 0) :
      exec (.rxRxCmd p b) s = .next (s.rxNext p (r.failed s.cfg) [.rxError p .invalidCmd] []) := by
    rw [exec_rxRxCmd]
    exact State.decoder_failed hr (onRxCmd_invalid hb) hp
  have cmdRow {i : Instr} {ack : Bool} {id : BitVec 7} (hi : i.cmdOperands = some (p, ack, id)) :
      exec i s = exec (.rxRxCmd p (cmdByte ack id)) s :=
    (cmdRowsAreByteSteps i p ack id s hi).trans (exec_rxStep_rxCmd hr hs)
  refine ⟨fun b hb => accepted hb, fun b hb => ?_, fun i ack id hi hid => ?_, fun ack => ?_⟩
  · rcases hb with rfl | rfl <;> exact invalid (by decide)
  · exact (cmdRow hi).trans (accepted (by rwa [cmdIdOf_cmdByte]))
  · exact (cmdRow rfl).trans (invalid (cmdIdOf_cmdByte ack 0))

/-- Settles O12: the handler has one branch. -/
theorem rxSize : Obligations.RxSize := by
  intro s p r b hr _
  rw [exec_rxRxSize]
  exact State.decoder_regs hr rfl

/-- Settles O13, by the branches of the handler. -/
theorem rxCrc8 : Obligations.RxCrc8 := by
  intro s p r hr hp _
  simp only [exec_rxRxCrc8]
  refine ⟨fun b hb => ?_, fun hl => ?_, fun hl => ?_⟩
  · exact State.decoder_failed hr (onRxCrc8_mismatch hb) hp
  · exact State.decoder_regs hr (onRxCrc8_data rfl hl)
  · exact State.decoder_completed hr (onRxCrc8_complete rfl hl) hp (by rw [hl]; rfl) (Nat.zero_le _)
      (Mem.holds_nil _ _)

/-- Settles O14: the row is the taking of the error itself. -/
theorem framingError : Obligations.FramingError := by
  intro s p r cause hr hp
  rw [exec_rxFail]
  exact State.decoder_failed hr rfl hp

/-- Settles O15: the data stands in `RXBUF`, so the completion reads it. -/
theorem complete : Obligations.Complete := by
  intro s p r data hr hp hl hc hd
  rw [exec_rxComplete]
  exact State.decoder_completed hr rfl hp hl hc hd

/-- Settles O16: the test of the cap comes before the store. -/
theorem rxData : Obligations.RxData := by
  intro s p r b hr hp hs
  simp only [exec_rxRxData]
  refine ⟨fun hc => ?overrun, fun hc => ?store⟩
  case overrun => exact State.decoder_failed hr (onRxData_overrun hc) hp
  case store =>
    refine ⟨r.buf.write r.dataCount b, ?_, Mem.read_write_same .., fun a ha => Mem.read_write_other _ _ ha⟩
    exact State.decoder_regs hr (hs ▸ onRxData_store hc)

/-- Settles O17, by the branches of both handlers. -/
theorem rxCrc16 : Obligations.RxCrc16 := by
  intro s p r hr hp
  simp only [exec_rxRxCrc16Hi, exec_rxRxCrc16Lo]
  refine ⟨fun _ => ⟨fun b hb => ?_, ?_⟩, fun _ => ⟨fun b hb => ?_, fun data hl hc hd => ?_⟩⟩
  · exact State.decoder_failed hr (onRxCrc16Hi_mismatch hb) hp
  · exact State.decoder_regs hr (onRxCrc16Hi_match rfl)
  · exact State.decoder_failed hr (onRxCrc16Lo_mismatch hb) hp
  · exact State.decoder_completed hr (onRxCrc16Lo_match rfl) hp hl hc hd

/-- Settles O18, by the decoder's state. -/
theorem entryDispatch : Obligations.EntryDispatch := by
  intro s p r hr
  refine ⟨fun m hs => ⟨fun i hi => ?sync, fun b hb => exec_rxStep_mid hr hs hb⟩,
    fun hs b => exec_rxStep_waitSync hr hs, fun hs b => exec_rxStep_rxCmd hr hs, fun hs b => ?escaped⟩
  case sync =>
    have hrow : exec i s = exec (.rxByteSyncMidframe p) s := by rcases hi with rfl | rfl | rfl <;> rfl
    rw [hrow, exec_rxByteSyncMidframe]
    exact State.decoder_regs hr (rxStep_mid_sync hs)
  case escaped =>
    split
    · next hb => rw [hb, exec_rxStep_escaped_sync hr hs]
    · next hb => exact exec_rxStep_escaped hr hs hb

/-- Settles O19: the handler of the remembered state gets `SYNC`, with that state restored. -/
theorem escapeConfirmed : Obligations.EscapeConfirmed := by
  intro s p r hr hs
  have hrow := exec_rxStep_escaped_sync hr hs
  simp only [exec_rxEscapeConfirmed] at hrow ⊢
  refine ⟨?delivery, hrow, fun hm => ?size, fun hm hc => ?data⟩
  case delivery =>
    rw [exec_decodeMid]
    exact State.decoder_setRx hr rfl
  case size =>
    exact State.decoder_regs hr (onEscapeConfirmed_of_saved hm)
  case data =>
    refine ⟨r.buf.write r.dataCount s.cfg.sync, ?_, Mem.read_write_same .., fun a ha => Mem.read_write_other _ _ ha⟩
    exact State.decoder_regs hr ((onEscapeConfirmed_of_saved hm).trans
      (onRxData_store (r := { r with state := .mid .rxData }) hc))

/-- Settles O20: the restart is the handler of `RxCmd` on seeded registers, after the abandon. -/
theorem abandonRestart : Obligations.AbandonRestart := by
  intro s p r b hr hp hs hb i hi
  have hrow : exec i s = exec (.rxAbandonRestart p b) s := by
    rcases hi with rfl | rfl
    · rfl
    · exact exec_rxStep_escaped hr hs hb
  subst hp
  rw [hrow, exec_rxAbandonRestart]
  refine ⟨fun hid => ?_, fun hid => ?_⟩
  · exact State.decoder_rxNext (o := ⟨_, _, _⟩) hr (onAbandonRestart_accepted hid)
  · exact State.decoder_rxNext (o := ⟨_, _, _⟩) hr (onAbandonRestart_invalid hid)

end Sys2Proof.Machine.Decoder


/-! SUPPORT. The turns of the tasks (`spec/44_dispatch.md`, `spec/45_port_manager.md`) and the table query. A step is
its agent's turn, so each turn is said by what it fetches: a task of an absent unit, or inside a handler that has not
returned, fetches nothing; a handler's return moves its requests to the task; an agent without operations runs its own
loop. -/

namespace Sys2Proof.Machine

section turns
variable {s t : State} {a : Agent} {rest : List Agent} {p : PortId} {r : Rx} {d : Drain} {i : Instr}

/-! ### A step is what its agent's turn fetches (R72) -/

theorem step_of_sched (hs : s.sched = a :: rest) : step s = turn a (s.turned rest) := by
  simp only [step, hs, State.turned]

theorem step_of_fetch_idle (hs : s.sched = a :: rest) (hf : fetch a (s.turned rest) = .idle) :
    step s = .next (s.turned rest) := by
  simp only [step_of_sched hs, turn, hf]

theorem step_of_fetch_moved (hs : s.sched = a :: rest) (hf : fetch a (s.turned rest) = .moved t) :
    step s = .next t := by
  simp only [step_of_sched hs, turn, hf]

theorem step_of_fetch_run (hs : s.sched = a :: rest) (hf : fetch a (s.turned rest) = .run i t) :
    step s = exec i t := by
  simp only [step_of_sched hs, turn, hf]

/-! ### What the decode task fetches -/

/-- A port without a receiver has no decode task (log 15). -/
theorem fetch_decode_absent (hr : s.rx? p = none) : fetch (.decode p) s = .idle := by
  simp only [fetch, fetchDecode, hr]

theorem fetch_decode_inHandler {h : Handler} (hr : s.rx? p = some r) (hh : r.inHandler = some h) :
    fetch (.decode p) s = fetchHandlerReturn p r s := by
  simp only [fetch, fetchDecode, hr, hh]

theorem fetch_decode_loop (hr : s.rx? p = some r) (hn : r.inHandler = none) (hw : (s.ctx (.decode p)).todo = []) :
    fetch (.decode p) s = fetchByte p r s := by
  simp only [fetch, fetchDecode, hr, hn, fetchWork_nil _ hw]

/-- A timeout or a missing answer is a round of the loop without a byte (R253). -/
theorem fetchByte_no_byte (hb : ∀ b input, (s.env p).input ≠ .byte b :: input) :
    fetchByte p r s = .run (.decodeTaskIteration p) s := by
  unfold fetchByte
  split
  · next b input hs => exact absurd hs (hb b input)
  · rfl

theorem fetchHandlerReturn_pending (he : (s.env p).handlerReturns = []) : fetchHandlerReturn p r s = .idle := by
  simp only [fetchHandlerReturn, he]

/-! ### The return of a handler (R226 item 3) -/

/-- The handler of port `p`, with receiver registers `r`, has returned with `replies`: its script is shorter by this
return, the decode task has left the handler, and the requests are its next calls. -/
def State.handlerReturned (s : State) (p : PortId) (r : Rx) (replies : List Reply) (more : List (List Reply)) : State :=
  ((s.setEnv p { s.env p with handlerReturns := more }).setRx p { r with inHandler := none }).pushWork (.decode p)
    (replies.map (replyInstr p))

section returned
variable {replies : List Reply} {more : List (List Reply)}

theorem fetchHandlerReturn_returned (he : (s.env p).handlerReturns = replies :: more) :
    fetchHandlerReturn p r s = .moved (s.handlerReturned p r replies more) := by
  simp only [fetchHandlerReturn, he, State.handlerReturned]

theorem State.handlerReturned_rx? {r' : Rx} (hr : s.rx? p = some r') :
    (s.handlerReturned p r replies more).rx? p = some { r with inHandler := none } := by
  have hr' : (s.setEnv p { s.env p with handlerReturns := more }).rx? p = some r' :=
    (State.setEnv_rx? ..).trans hr
  obtain ⟨P, hP, -⟩ := State.port?_of_rx? hr'
  exact (State.pushWork_rx? ..).trans (State.setRx_rx? _ _ _ hP)

theorem State.handlerReturned_todo : ((s.handlerReturned p r replies more).ctx (.decode p)).todo =
    replies.map (replyInstr p) ++ (s.ctx (.decode p)).todo := by
  rw [State.handlerReturned, State.pushWork_todo, if_pos rfl, State.setRx_ctx, State.setEnv_ctx]

theorem State.handlerReturned_tx? (q : PortId) : (s.handlerReturned p r replies more).tx? q = s.tx? q := by
  simp [State.handlerReturned]

theorem State.handlerReturned_sched : (s.handlerReturned p r replies more).sched = s.sched := by
  simp [State.handlerReturned]

end returned

/-! ### What the drain task fetches -/

/-- A port without a drain handle has no drain task (R41; log 15). -/
theorem fetch_drain_absent (hd : s.drain? p = none) : fetch (.drain p) s = .idle := by
  simp only [fetch, fetchDrain, hd]

theorem fetch_drain_loop (hd : s.drain? p = some d) (hw : (s.ctx (.drain p)).todo = []) :
    fetch (.drain p) s = fetchDrainLoop p d s := by
  simp only [fetch, fetchDrain, hd, fetchWork_nil _ hw]

theorem fetchDrainLoop_blocked (hs : d.state = .blocked) : fetchDrainLoop p d s = .run (.drainWake p) s := by
  simp only [fetchDrainLoop, hs]

theorem fetchDrainLoop_draining (hs : d.state = .draining) : fetchDrainLoop p d s = .run (.drainIteration p) s := by
  simp only [fetchDrainLoop, hs]

end turns

section lookup
variable {α : Type} {len : Nat} {table : List (Option α)} {id : Nat}

/-! ### The table query (R221, R224) -/

theorem tableQuery_out_of_bounds (h : id = 0 ∨ len ≤ id) : tableQuery len table id = none := by
  unfold tableQuery
  split
  · rfl
  · next h0 => exact if_neg (Nat.not_lt.mpr (h.resolve_left h0))

theorem tableQuery_entry {x : Option α} (h0 : id ≠ 0) (hlt : id < len) (hx : table[id]? = some x) :
    tableQuery len table id = x := by
  rw [tableQuery, if_neg h0, if_pos hlt, hx, Option.join_some]

theorem exec_lookupDec (who : Agent) (id : Nat) (s : State) :
    exec (.lookupDec who id) s = .next (s.setRet who (.handler (tableQuery s.cfg.tableLen s.cfg.decTable id))) := rfl

theorem exec_lookupGen (who : Agent) (id : Nat) (s : State) :
    exec (.lookupGen who id) s = .next (s.setRet who (.generator (tableQuery s.cfg.tableLen s.cfg.genTable id))) := rfl

end lookup

/-- Settles O6, by what each turn fetches once the schedule has moved on. -/
theorem stepTaskTurns : Obligations.StepTaskTurns := by
  intro s p rest
  refine ⟨fun r hs hr hn hw hb => ?round, fun r h hs hr hh he => ?waiting,
    fun r h replies more hs hr hh he => ?returned, fun d hs hd hblocked hw => ?wake,
    fun d hs hd hdraining hw => ?line, fun hs hw => ?host, fun hs hd => ?noDrain, fun hs hr => ?noReceiver⟩
  case round =>
    exact step_of_fetch_run hs ((fetch_decode_loop (s := s.turned rest) hr hn hw).trans (fetchByte_no_byte hb))
  case waiting =>
    exact step_of_fetch_idle hs
      ((fetch_decode_inHandler (s := s.turned rest) hr hh).trans (fetchHandlerReturn_pending he))
  case returned =>
    have hfetch := (fetch_decode_inHandler (s := s.turned rest) hr hh).trans (fetchHandlerReturn_returned he)
    exact ⟨_, step_of_fetch_moved hs hfetch, State.handlerReturned_rx? hr, State.handlerReturned_todo,
      State.handlerReturned_tx?, State.handlerReturned_sched⟩
  case wake =>
    exact step_of_fetch_run hs ((fetch_drain_loop (s := s.turned rest) hd hw).trans (fetchDrainLoop_blocked hblocked))
  case line =>
    exact step_of_fetch_run hs ((fetch_drain_loop (s := s.turned rest) hd hw).trans (fetchDrainLoop_draining hdraining))
  case host => exact step_of_fetch_idle hs (fetchWork_nil .idle hw)
  case noDrain => exact step_of_fetch_idle hs (fetch_drain_absent hd)
  case noReceiver => exact step_of_fetch_idle hs (fetch_decode_absent hr)

/-- Settles O55: both operations return the answer of the table query, which has these two cases. -/
theorem lookups : Obligations.Lookups := by
  intro s who id
  simp only [exec_lookupDec, exec_lookupGen]
  refine ⟨fun hout => ?outside, fun h h0 hlt hx => ?handler, fun g h0 hlt hx => ?generator⟩
  case outside => simp only [tableQuery_out_of_bounds hout, and_self]
  case handler => rw [tableQuery_entry h0 hlt hx]
  case generator => rw [tableQuery_entry h0 hlt hx]

end Sys2Proof.Machine

/-! SUPPORT. The statements of `spec/45_port_manager.md`. Every generator entry point is the generic call on the payload
it yields, so a send is claim, generic call and release. The signal, the wake and the abort change one port record. A
line of the drain loop is a change of that record too, and a drain is lines in a row: one round of the loop sends the
readable run, and a ring whose committed bytes wrap has two of them. -/

namespace Sys2Proof.Machine

/-! ### A change of one port record -/

section records
variable {s : State} {p : PortId} {P : Port}

theorem State.drain?_of_port? (hP : s.port? p = some P) : s.drain? p = P.drain := by
  rw [State.drain?, hP, Option.bind_some]

theorem State.tx?_of_port? (hP : s.port? p = some P) : s.tx? p = P.tx := by
  rw [State.tx?, hP, Option.bind_some]

theorem State.env_of_port? (hP : s.port? p = some P) : s.env p = P.env := by
  simp only [State.env, hP, Option.map_some, Option.getD_some]

theorem State.txTimeout_of_port? (hP : s.port? p = some P) : s.txTimeout p = P.txTimeout := by
  simp only [State.txTimeout, hP, Option.map_some, Option.getD_some]

theorem State.port?_modifyPort_some {f : Port → Port} (hP : s.port? p = some P) :
    (s.modifyPort p f).port? p = some (f P) := by
  rw [State.port?_modifyPort_same, hP, Option.map_some]

/-- What a change of one port record leaves as it was. -/
theorem State.modifyPort_frame {f : Port → Port} (hP : s.port? p = some P) :
    (s.modifyPort p f).port? p = some (f P) ∧ (∀ q, q ≠ p → (s.modifyPort p f).port? q = s.port? q) ∧
      (s.modifyPort p f).ctxs = s.ctxs ∧ (s.modifyPort p f).cfg = s.cfg :=
  ⟨State.port?_modifyPort_some hP, fun _ hq => State.port?_modifyPort_other s f hq.symm, rfl, rfl⟩

end records

/-! ### `generate_and_send` (R241) -/

section send
variable {s : State} {p : PortId} {self : Instr} {who : Agent} {cmd : Byte} {data : List Byte} {T T' : Ring}

theorem exec_generateAndSend : exec (.generateAndSend who cmd p data) s =
    s.generateAndSend (.generateAndSend who cmd p data) who cmd p data := rfl

theorem State.generateAndSend_noGenerator (hT : s.tx? p = some T) (hg : lookupGen s.cfg (cmdIdOf cmd).toNat = none) :
    s.generateAndSend self who cmd p data = .next (s.setRet who (.bool false)) := by
  simp only [State.generateAndSend, hT, hg]

/-- The header-only entry point is the generic one without data (R164). -/
theorem Ring.generate_eq_genGeneric (c : Cfg) (payload : Option (List Byte)) :
    T.generate c cmd payload = T.genGeneric c cmd (payload.getD []) := by
  cases payload <;> rfl

/-- A generic call without room for its payload or its frame fails and leaves stale bytes at most, whichever of the
three tests it fails (R278, R168). -/
theorem Ring.genGeneric_fails (c : Cfg) (hc : T.CursorsIn) (h : 255 < data.length ∨ T.free < data.length + 6 ∨
    T.free < (wire c.sync (frameFor c cmd data)).length) : ∃ (T' : Ring) (cause : CapacityCause),
      T.genGeneric c cmd data = (T', some cause) ∧ T.OnlyStale T' := by
  have hdropped : T.OnlyStale T.dropCall := ⟨rfl, rfl, rfl, fun _ _ => rfl⟩
  by_cases hn : 255 < data.length
  · exact ⟨_, _, Ring.genGeneric_tooLong c cmd hn, hdropped⟩
  have hout := Ring.genGeneric_frameFor c cmd hc (Nat.not_lt.mp hn)
  by_cases hf : T.free < data.length + 6
  · exact ⟨_, _, hout.upFront hf, hdropped⟩
  · obtain ⟨T', hlate, hstale, -⟩ := hout.exists_onlyStale (Nat.not_lt.mp hf) ((h.resolve_left hn).resolve_left hf)
    exact ⟨T', _, hlate, hstale⟩

/-- Between the claim and the release of a failed call a ring is the ring itself, to what the call leaves. -/
theorem Ring.OnlyStale.release (h : (T.claim who).OnlyStale T') : T.OnlyStale T'.release :=
  ⟨h.size, h.head, h.tail, h.others⟩

/-- A payload from device state uses up its free value, and no other payload does (log 11). -/
theorem State.payloadTaken_eq (g : Generator) :
    s.payloadTaken g = { s with freeIx := if g = .device then s.freeIx + 1 else s.freeIx } := by
  cases g <;> rfl

end send

/-- Settles O47: the tests before the claim, and the claim on a held lock. -/
theorem sendNotStarted : Obligations.SendNotStarted := by
  intro s who cmd p data
  simp only [exec_generateAndSend]
  exact ⟨fun hT => State.generateAndSend_noBuffer hT, fun T hT =>
    ⟨fun hg => State.generateAndSend_noGenerator hT hg, fun g x hg hl => State.generateAndSend_held hT hg hl⟩⟩

/-- Settles O48: the call on the claimed ring is the generic one on the generator's payload, which appends the frame or
leaves stale bytes. -/
theorem sendFrame : Obligations.SendFrame := by
  intro s who cmd p data payload T g _ hT hc hl hg hpayload
  have hyields : (s.payload (cmdIdOf cmd).toNat data g).getD [] = payload := by
    subst hpayload
    cases g <;> rfl
  have hsend : exec (.generateAndSend who cmd p data) s = .next
      ((s.payloadTaken g).generateAndRelease who cmd p (s.payload (cmdIdOf cmd).toNat data g) T) :=
    exec_generateAndSend.trans (State.generateAndSend_free hT hg hl)
  have hcall : (T.claim who).generate (s.payloadTaken g).cfg cmd (s.payload (cmdIdOf cmd).toNat data g) =
      (T.claim who).genGeneric s.cfg cmd payload := by
    rw [State.payloadTaken_cfg, Ring.generate_eq_genGeneric, hyields]
  have hc' : (T.claim who).CursorsIn := hc
  refine ⟨s.payloadTaken g, State.payloadTaken_eq g, fun hn hf hw => ?fits, fun hfull => ?full⟩
  case fits =>
    obtain ⟨T', hout, happ, -⟩ := (Ring.genGeneric_frameFor s.cfg cmd hc' hn).exists_appended hf hw
    refine ⟨T'.release, ?_, happ.release, rfl, rfl⟩
    rw [hsend, State.generateAndRelease_ok (hcall.trans hout), payloadLength, hyields]
  case full =>
    obtain ⟨T', cause, hout, hstale⟩ := Ring.genGeneric_fails s.cfg hc' hfull
    refine ⟨T'.release, cause, ?_, hstale.release, rfl, rfl⟩
    rw [hsend, State.generateAndRelease_fail (hcall.trans hout), payloadLength, hyields]

/-! ### The signal, the wake and the abort (R246, R248, R250) -/

section drainState
variable {s : State} {p : PortId} {P : Port} {d : Drain}

theorem exec_signal (hd : (s.drain? p).isSome = true) : exec (.signal p) s =
    .next (s.modifyPort p fun P => { P with pending := true, trace := P.trace ++ [.signal p] }) := by
  obtain ⟨d, hd⟩ := Option.isSome_iff_exists.mp hd
  show execSignal p s = _
  rw [execSignal, hd]
  exact congrArg _ (State.modifyPort_modifyPort s p _ _)

theorem exec_signal_noDrain (hd : s.drain? p = none) : exec (.signal p) s = .next s := by
  show execSignal p s = _
  rw [execSignal, hd]

theorem exec_drainWake (hP : s.port? p = some P) (hd : P.drain = some d) : exec (.drainWake p) s =
    if d.state = .blocked ∧ P.pending = true then
      .next (s.modifyPort p fun P => { P with pending := false, drain := some (Drain.atLine .testEmpty) })
    else .next s := by
  refine (State.withDrain_eq ((State.drain?_of_port? hP).trans hd)).trans ?_
  rw [hP]
  exact congrArg (ite _ · _) (congrArg _ (State.modifyPort_modifyPort s p _ _))

/-- The abort blocks the task and is observed, in one change of the record. -/
theorem State.abortDrain_eq (s : State) (p : PortId) (cause : DrainCause) : s.abortDrain p cause =
    s.modifyPort p fun P => { P with drain := some Drain.asleep, trace := P.trace ++ [.drainAbort p cause] } :=
  State.modifyPort_modifyPort s p _ _

theorem exec_drainAbort (cause : DrainCause) (hd : s.drain? p = some d) (hs : d.state = .draining) :
    exec (.drainAbort p cause) s = .next (s.abortDrain p cause) := by
  refine (State.withDrain_eq hd).trans ?_
  rw [hs]

end drainState

/-- Settles O49: with a drain task the signal changes the port's record, and without one nothing. -/
theorem signal : Obligations.Signal := fun _ _ =>
  ⟨exec_signal_noDrain, fun _ hP hd =>
    ⟨_, exec_signal ((State.drain?_of_port? hP).symm ▸ hd), State.modifyPort_frame hP⟩⟩

/-- Settles O50: the wake has its step on a blocked task with a signal pending only. -/
theorem wake : Obligations.Wake := by
  intro s p P d hP hd
  rw [exec_drainWake hP hd]
  refine ⟨fun hs hp => ?enabled, fun h => ?disabled⟩
  case enabled => exact ⟨_, if_pos ⟨hs, hp⟩, State.modifyPort_frame hP⟩
  case disabled =>
    refine if_neg ?_
    rintro ⟨hs, hp⟩
    rcases h with h | h
    · rw [hs] at h; cases h
    · rw [hp] at h; cases h

/-- Settles O52: inside the loop the row is the abort, which changes the port's record. -/
theorem drainAborts : Obligations.DrainAborts := by
  intro s p P d cause hP hd hs
  refine ⟨_, exec_drainAbort cause ((State.drain?_of_port? hP).trans hd) hs, ?_⟩
  rw [State.abortDrain_eq]
  exact State.modifyPort_frame hP

/-! ### The lines of the drain loop (R249) -/

/-- The line of a drain task inside its loop, on ring `T`. -/
def State.drainLine (s : State) (p : PortId) (T : Ring) : DrainLine → Result
  | .testEmpty => .next (s.drainTest p T)
  | .queryActive => .next (s.drainQuery p)
  | .readRun => s.drainRead p T
  | .sendRun bs => .next (s.drainSend p bs)
  | .settle bs ok => s.drainSettle p T bs ok

section lines
variable {s : State} {p : PortId} {P : Port} {d : Drain} {T : Ring} {l : DrainLine} {bs : List Byte}

theorem exec_drainIteration_draining (hP : s.port? p = some P) (hd : P.drain = some d) (hT : P.tx = some T)
    (hs : d.state = .draining) (hl : d.line = l) : exec (.drainIteration p) s = s.drainLine p T l := by
  refine (State.withDrain_eq ((State.drain?_of_port? hP).trans hd)).trans
    ((State.withRing_eq ((State.tx?_of_port? hP).trans hT)).trans ?_)
  rw [hs, hl]
  cases l <;> rfl

/-- A blocked task has no line (log 27). -/
theorem exec_drainIteration_blocked (hP : s.port? p = some P) (hd : P.drain = some d) (hT : P.tx = some T)
    (hs : d.state = .blocked) : exec (.drainIteration p) s = .next s := by
  refine (State.withDrain_eq ((State.drain?_of_port? hP).trans hd)).trans
    ((State.withRing_eq ((State.tx?_of_port? hP).trans hT)).trans ?_)
  rw [hs]

theorem State.drainTest_empty (h : T.head = T.tail) : s.drainTest p T = s.setDrain p Drain.asleep :=
  if_pos (decide_eq_true h)

theorem State.drainTest_nonempty (h : T.head ≠ T.tail) :
    s.drainTest p T = s.setDrain p (Drain.atLine .queryActive) :=
  if_neg (by simpa [Ring.isEmpty] using h)

/-- The `is_active` query takes an answer, and an inactive transport ends the drain (R250). -/
theorem State.drainQuery_port? {a : Bool} {rest : List Bool} (hP : s.port? p = some P)
    (ha : P.env.active = a :: rest) : (s.drainQuery p).port? p = some { P with
      env := { P.env with active := rest }
      calls := P.calls ++ [.isActive]
      drain := some (if a then Drain.atLine .readRun else Drain.asleep)
      trace := P.trace ++ (if a then [] else [.drainAbort p .inactive]) } := by
  unfold State.drainQuery
  rw [State.env_of_port? hP, ha]
  cases a <;> simp [State.abortDrain, State.emit, State.setDrain, State.boundary, State.setEnv, hP]

/-- The read takes the whole readable run (R141, R142). -/
theorem State.drainRead_holds (hc : T.CursorsIn) (hb : T.buf.Holds T.tail bs) (hn : bs.length = T.readableRun.2) :
    s.drainRead p T = .next (s.setDrain p (Drain.atLine (.sendRun bs))) := by
  obtain ⟨hstart, -, hend, -⟩ := Ring.readableRun_spec hc
  have hread : T.readRun p T.readableRun.1 T.readableRun.2 = .ok bs := by
    rw [hstart, ← hn]
    exact Ring.readRun_holds hb (hn ▸ hend)
  simp only [State.drainRead, hread]

/-- The bracketed `send` takes an answer and keeps it for the next line. -/
theorem State.drainSend_port? {ok : Bool} {rest : List Bool} (hP : s.port? p = some P)
    (ha : P.env.sends = ok :: rest) : (s.drainSend p bs).port? p = some { P with
      env := { P.env with sends := rest }
      calls := P.calls ++ [.claim, .send bs P.txTimeout, .release]
      drain := some (Drain.atLine (.settle bs ok)) } := by
  unfold State.drainSend
  rw [State.env_of_port? hP, State.txTimeout_of_port? hP, ha]
  simp [State.setDrain, State.boundary, State.setEnv, hP]

/-- The advance behind a run that was sent, as one change of the record. -/
theorem State.drainSettle_sent (hn : 0 < bs.length ∧ bs.length ≤ T.used) : s.drainSettle p T bs true =
    .next (s.modifyPort p fun P => { P with
      tx := some (T.advance bs.length)
      trace := P.trace ++ [.txBytes p bs]
      drain := some (Drain.atLine .testEmpty) }) := by
  rw [State.drainSettle, if_pos rfl, Ring.mayAdvance, if_pos (decide_eq_true hn), State.setDrain, State.emit,
    State.setTx, State.modifyPort_modifyPort, State.modifyPort_modifyPort]
  rfl

theorem State.drainSettle_failed : s.drainSettle p T bs false = .next (s.abortDrain p .sendFailed) := rfl

end lines

/-- Settles O51, line by line. -/
theorem drainLines : Obligations.DrainLines := by
  intro s p P d T hP hd hT hs
  have hexec {l : DrainLine} (hl : d.line = l) := exec_drainIteration_draining hP hd hT hs hl
  refine ⟨fun hl he => ?empty, fun hl he => ?nonempty, fun a rest hl ha => ?query, fun bs hl hc hb hn => ?read,
    fun bs ok rest hl ha => ?send, fun bs hl hpos hn => ?sent, fun bs hl => ?failed⟩
  case empty => exact (hexec hl).trans (congrArg _ (State.drainTest_empty he))
  case nonempty => exact (hexec hl).trans (congrArg _ (State.drainTest_nonempty he))
  case query => exact ⟨_, hexec hl, State.drainQuery_port? hP ha⟩
  case read =>
    refine (hexec hl).trans (State.drainRead_holds hc hb (hn.trans ?_))
    unfold Ring.readableRun
    split <;> rfl
  case send => exact ⟨_, hexec hl, State.drainSend_port? hP ha⟩
  case sent =>
    exact ⟨_, (hexec hl).trans (State.drainSettle_sent ⟨hpos, hn⟩), State.port?_modifyPort_some hP⟩
  case failed =>
    refine ⟨_, (hexec hl).trans State.drainSettle_failed, ?_⟩
    rw [State.abortDrain_eq]
    exact State.port?_modifyPort_some hP

/-! ### Lines in a row

A line of the loop reads and writes the port's record only, so what a drain does is said of records. -/

/-- From any state with record `P` for port `p`, the next `n` lines of the port's drain leave it the record `Q`. -/
def Port.Lines (p : PortId) (n : Nat) (P Q : Port) : Prop :=
  ∀ s : State, s.port? p = some P →
    ∃ t, execAll (List.replicate n (.drainIteration p)) s = .next t ∧ t.port? p = some Q

/-- The record after a round of the loop that sent `bs` from ring `T`, with the answers the transport has left. -/
def Port.sentRun (P : Port) (p : PortId) (T : Ring) (bs : List Byte) (active sends : List Bool) : Port :=
  { P with
    tx := some (T.advance bs.length)
    drain := some (Drain.atLine .testEmpty)
    env := { P.env with active := active, sends := sends }
    calls := P.calls ++ [.isActive] ++ [.claim, .send bs P.txTimeout, .release]
    trace := P.trace ++ [.txBytes p bs] }

/-- What a drain that emptied ring `T` made of record `P`: the task is blocked, the read cursor stands at the write
cursor, and the bytes sent are the committed ones (R252). -/
structure Port.Emptied (T : Ring) (P Q : Port) : Prop where
  tx : Q.tx = some { T with tail := T.head }
  drain : Q.drain = some Drain.asleep
  rx : Q.rx = P.rx
  pending : Q.pending = P.pending
  sent : ∃ es, Q.trace = P.trace ++ es ∧ (es.flatMap Event.sentBytes).map some = T.contents

section drain
variable {p : PortId} {P Q R : Port} {d : Drain} {T : Ring} {bs : List Byte} {active sends : List Bool} {n : Nat}

theorem Port.Lines.cons (h : ∀ s : State, s.port? p = some P →
      ∃ t, exec (.drainIteration p) s = .next t ∧ t.port? p = some Q)
    (hlines : Q.Lines p n R) : P.Lines p (n + 1) R := by
  intro s hP
  obtain ⟨t, hexec, hQ⟩ := h s hP
  obtain ⟨u, hall, hR⟩ := hlines t hQ
  exact ⟨u, (execAll_cons_next hexec).trans hall, hR⟩

/-- Lines of a blocked task change nothing (log 27). -/
theorem Port.lines_blocked (hd : P.drain = some Drain.asleep) (hT : P.tx = some T) : P.Lines p n P := by
  induction n with
  | zero => exact fun s hP => ⟨s, rfl, hP⟩
  | succ n ih => exact ih.cons fun s hP => ⟨s, exec_drainIteration_blocked hP hd hT rfl, hP⟩

/-! #### The readable run and the committed bytes -/

/-- The readable run of a sound ring is there to be read. -/
theorem Ring.Inv.exists_run (hI : T.Inv) : ∃ bs : List Byte, bs.length = T.readableRun.2 ∧ T.buf.Holds T.tail bs := by
  obtain ⟨-, hused, hend, -⟩ := Ring.readableRun_spec hI.cursorsIn
  refine Mem.exists_holds _ _ fun k hk => ?_
  have hwritten := hI.committed k (by omega)
  rwa [Nat.mod_eq_of_lt (by omega)] at hwritten

/-- The readable run is the oldest committed bytes (R141). -/
theorem Ring.take_contents (hn : bs.length ≤ T.used) (hend : T.tail + bs.length ≤ T.size)
    (hb : T.buf.Holds T.tail bs) : T.contents.take bs.length = bs.map some := by
  refine List.ext_getElem (by simp [Ring.contents, hn]) fun k _ hk => ?_
  have hk : k < bs.length := by simpa using hk
  simp [Ring.contents, Nat.mod_eq_of_lt (show T.tail + k < T.size by omega), hb k hk]

theorem Ring.contents_empty (hc : T.CursorsIn) (he : T.head = T.tail) : T.contents = [] := by
  simp [Ring.contents, Ring.used_eq hc, he]

/-- Past the readable run the read cursor stands at the write cursor, or at the start of the array when the committed
bytes wrap (R141). -/
theorem Ring.tail_advance_run (hc : T.CursorsIn) :
    (T.advance T.readableRun.2).tail = if T.tail ≤ T.head then T.head else 0 := by
  have hhead := hc.1; have htail := hc.2
  rw [Ring.advance_tail, Ring.readableRun]
  split
  · next hle => simp only [Nat.add_sub_cancel' hle, Nat.mod_eq_of_lt hhead]
  · simp only [Nat.add_sub_cancel' htail.le, Nat.mod_self]

/-! #### Rounds of the loop -/

/-- A round of the loop on a ring with committed bytes: the five lines send the readable run. -/
theorem Port.Lines.round (hd : P.drain = some (Drain.atLine .testEmpty)) (hT : P.tx = some T) (hc : T.CursorsIn)
    (hne : T.head ≠ T.tail) (ha : P.env.active = true :: active) (hs : P.env.sends = true :: sends)
    (hb : T.buf.Holds T.tail bs) (hn : bs.length = T.readableRun.2)
    (h : (P.sentRun p T bs active sends).Lines p n R) : P.Lines p (n + 5) R := by
  obtain ⟨-, hused, -, hpos⟩ := Ring.readableRun_spec hc
  have hsettle : 0 < bs.length ∧ bs.length ≤ T.used := hn ▸ ⟨hpos hne, hused⟩
  have hsent := h.cons (P := { P with
      env := { P.env with active := active, sends := sends }
      calls := P.calls ++ [.isActive] ++ [.claim, .send bs P.txTimeout, .release]
      drain := some (Drain.atLine (.settle bs true)) }) fun s hP =>
    ⟨_, (exec_drainIteration_draining hP rfl hT rfl rfl).trans (State.drainSettle_sent hsettle),
      State.port?_modifyPort_some hP⟩
  have hsend := hsent.cons (P := { P with
      env := { P.env with active := active }
      calls := P.calls ++ [.isActive]
      drain := some (Drain.atLine (.sendRun bs)) }) fun s hP =>
    ⟨_, exec_drainIteration_draining hP rfl hT rfl rfl, State.drainSend_port? hP hs⟩
  have hread := hsend.cons (P := { P with
      env := { P.env with active := active }
      calls := P.calls ++ [.isActive]
      drain := some (Drain.atLine .readRun) }) fun s hP =>
    ⟨_, (exec_drainIteration_draining hP rfl hT rfl rfl).trans (State.drainRead_holds hc hb hn),
      State.port?_modifyPort_some hP⟩
  have hquery := hread.cons (P := { P with drain := some (Drain.atLine .queryActive) }) fun s hP =>
    ⟨_, exec_drainIteration_draining hP rfl hT rfl rfl, by simpa using State.drainQuery_port? hP ha⟩
  exact hquery.cons fun s hP =>
    ⟨_, (exec_drainIteration_draining hP hd hT rfl rfl).trans (congrArg _ (State.drainTest_nonempty hne)),
      State.port?_modifyPort_some hP⟩

/-- On an empty ring the first line ends the drain (R251). -/
theorem Port.exists_emptied_of_empty (hd : P.drain = some (Drain.atLine .testEmpty)) (hT : P.tx = some T)
    (hc : T.CursorsIn) (he : T.head = T.tail) : ∃ Q, P.Lines p (n + 1) Q ∧ P.Emptied T Q := by
  have hblocked : ({ P with drain := some Drain.asleep } : Port).Lines p n { P with drain := some Drain.asleep } :=
    Port.lines_blocked rfl hT
  refine ⟨_, hblocked.cons fun s hP => ?line, ?emptied⟩
  case line =>
    exact ⟨_, (exec_drainIteration_draining hP hd hT rfl rfl).trans (congrArg _ (State.drainTest_empty he)),
      State.port?_modifyPort_some hP⟩
  case emptied =>
    have htx : P.tx = some { T with tail := T.head } :=
      hT.trans (congrArg (fun i => some { T with tail := i }) he.symm)
    exact ⟨htx, rfl, rfl, rfl, [], (List.append_nil _).symm, (Ring.contents_empty hc he).symm⟩

/-- A drain that empties the ring behind the first run has emptied the ring. -/
theorem Port.Emptied.of_sentRun (hc : T.CursorsIn) (hb : T.buf.Holds T.tail bs) (hn : bs.length = T.readableRun.2)
    (h : (P.sentRun p T bs active sends).Emptied (T.advance bs.length) Q) : P.Emptied T Q := by
  obtain ⟨-, hused, hend, -⟩ := Ring.readableRun_spec hc
  rw [← hn] at hused hend
  obtain ⟨es, htrace, hsent⟩ := h.sent
  refine ⟨h.tx, h.drain, h.rx, h.pending, .txBytes p bs :: es, ?trace, ?bytes⟩
  case trace => simp [htrace, Port.sentRun]
  case bytes =>
    calc ((Event.txBytes p bs :: es).flatMap Event.sentBytes).map some
        = bs.map some ++ (es.flatMap Event.sentBytes).map some := by simp [Event.sentBytes]
      _ = T.contents.take bs.length ++ T.contents.drop bs.length := by
        rw [hsent, Ring.contents_advance hc hused, Ring.take_contents hused hend hb]
      _ = T.contents := List.take_append_drop _ _

/-- A round of the loop, and a drain of what it leaves. -/
theorem Port.exists_emptied_of_round (hd : P.drain = some (Drain.atLine .testEmpty)) (hT : P.tx = some T) (hI : T.Inv)
    (hne : T.head ≠ T.tail) (ha : P.env.active = true :: active) (hs : P.env.sends = true :: sends)
    (h : ∀ bs : List Byte, bs.length = T.readableRun.2 →
      ∃ Q, (P.sentRun p T bs active sends).Lines p n Q ∧
        (P.sentRun p T bs active sends).Emptied (T.advance bs.length) Q) :
    ∃ Q, P.Lines p (n + 5) Q ∧ P.Emptied T Q := by
  obtain ⟨bs, hn, hb⟩ := hI.exists_run
  obtain ⟨Q, hlines, hemptied⟩ := h bs hn
  exact ⟨Q, .round hd hT hI.cursorsIn hne ha hs hb hn hlines, .of_sentRun hI.cursorsIn hb hn hemptied⟩

/-- Committed bytes that do not wrap are one run: one round and the last test. -/
theorem Port.exists_emptied_of_le (hd : P.drain = some (Drain.atLine .testEmpty)) (hT : P.tx = some T) (hI : T.Inv)
    (hle : T.tail ≤ T.head) (ha : P.env.active = true :: active) (hs : P.env.sends = true :: sends) :
    ∃ Q, P.Lines p (n + 6) Q ∧ P.Emptied T Q := by
  by_cases he : T.head = T.tail
  · exact Port.exists_emptied_of_empty (n := n + 5) hd hT hI.cursorsIn he
  refine Port.exists_emptied_of_round (n := n + 1) hd hT hI he ha hs fun bs hn => ?_
  have hused : bs.length ≤ T.used := hn ▸ (Ring.readableRun_spec hI.cursorsIn).2.1
  have htail : (T.advance bs.length).tail = T.head := by rw [hn, Ring.tail_advance_run hI.cursorsIn, if_pos hle]
  exact Port.exists_emptied_of_empty rfl rfl (hI.advance hused).cursorsIn htail.symm

/-- Committed bytes that wrap are two runs: the second one starts at the start of the array. -/
theorem Port.exists_emptied_of_lt (hd : P.drain = some (Drain.atLine .testEmpty)) (hT : P.tx = some T) (hI : T.Inv)
    (hlt : T.head < T.tail) (ha : P.env.active = true :: true :: active) (hs : P.env.sends = true :: true :: sends) :
    ∃ Q, P.Lines p (n + 11) Q ∧ P.Emptied T Q := by
  refine Port.exists_emptied_of_round (n := n + 6) hd hT hI hlt.ne ha hs fun bs hn => ?_
  have hused : bs.length ≤ T.used := hn ▸ (Ring.readableRun_spec hI.cursorsIn).2.1
  have htail : (T.advance bs.length).tail = 0 := by
    rw [hn, Ring.tail_advance_run hI.cursorsIn, if_neg (Nat.not_le.mpr hlt)]
  exact Port.exists_emptied_of_le rfl rfl (hI.advance hused) (htail ▸ Nat.zero_le _) rfl rfl

end drain

/-- Settles O53: one round or two, by whether the committed bytes wrap, and the last test. -/
theorem drainEmpties : Obligations.DrainEmpties := by
  intro s p P T active sends hP hT hd hI ha hs
  have hemptied : ∃ Q, P.Lines p 11 Q ∧ P.Emptied T Q := by
    rcases Nat.lt_or_ge T.head T.tail with hlt | hle
    · exact Port.exists_emptied_of_lt (n := 0) hd hT hI hlt ha hs
    · exact Port.exists_emptied_of_le (n := 5) hd hT hI hle ha hs
  obtain ⟨Q, hlines, hQ⟩ := hemptied
  obtain ⟨t, hexec, hport⟩ := hlines s hP
  obtain ⟨es, htrace, hsent⟩ := hQ.sent
  exact ⟨t, Q, es, hexec, hport, hQ.tx, hQ.drain, hQ.rx, hQ.pending, htrace, hsent⟩

/-! ### The decode task's round (R253) -/

section round
variable {s : State} {p : PortId} {r : Rx} {b : Byte} {rest : List RxAnswer}

theorem exec_decodeTaskIteration_waits (hr : s.rx? p = some r) (hi : (s.env p).input = []) :
    exec (.decodeTaskIteration p) s = .next s := by
  show execDecodeTaskIteration p s = _
  simp only [execDecodeTaskIteration, hr, hi]

theorem exec_decodeTaskIteration_timeout (hr : s.rx? p = some r) (hi : (s.env p).input = .timeout :: rest) :
    exec (.decodeTaskIteration p) s = .next (s.takeInput p rest) := by
  show execDecodeTaskIteration p s = _
  simp only [execDecodeTaskIteration, hr, hi]

/-- A byte goes to the byte step (R254). -/
theorem exec_decodeTaskIteration_byte (hr : s.rx? p = some r) (hi : (s.env p).input = .byte b :: rest) :
    exec (.decodeTaskIteration p) s = exec (.rxStep p b) (s.takeInput p rest) := by
  show execDecodeTaskIteration p s = _
  simp only [execDecodeTaskIteration, hr, hi, exec_rxStep]

theorem State.takeInput_tx? (q : PortId) : (s.takeInput p rest).tx? q = s.tx? q := by
  simp [State.takeInput]

end round

/-- Settles O54: a round is nothing, a timeout taken, or a byte step, which is total on coherent registers. -/
theorem decodeRound : Obligations.DecodeRound := by
  intro s p r hr
  refine ⟨exec_decodeTaskIteration_waits hr, fun rest hi => ?timeout, fun b rest hi => ?byte⟩
  case timeout =>
    exact ⟨_, exec_decodeTaskIteration_timeout hr hi, rfl, (State.takeInput_rx? rest).trans hr, State.takeInput_tx? p⟩
  case byte =>
    refine ⟨exec_decodeTaskIteration_byte hr hi, fun hI hcoh => ?_⟩
    obtain ⟨o, ho, -⟩ := rxStep_total hI hcoh b
    have hr' : (s.takeInput p rest).rx? p = some r := (State.takeInput_rx? rest).trans hr
    have hstep : exec (.rxStep p b) (s.takeInput p rest) =
        .next ((s.takeInput p rest).rxNext p o.rx o.events o.work) :=
      State.decoder_rxNext (f := fun c r => rxStep c b r) hr' ho
    exact ⟨o.rx, o.events, o.work, (exec_decodeTaskIteration_byte hr hi).trans hstep⟩

end Sys2Proof.Machine

/-! SUPPORT. The statement of `spec/60_exceptions.md`. A good state is one whose port records are good and whose agents
have their own operations to do. Each update of a state says what it asks for to keep that, so an operation makes
progress when what it writes is coherent: the decoder's registers by the totality of its handlers, the ring because a
send never takes committed bytes away, the drain task because each line of its loop has seen what the next one needs. -/

namespace Sys2Proof.Machine

/-! ### Good states, port by port -/

/-- A port record of a good state: it keeps the invariants, and its decoder and its drain task are coherent. -/
structure Port.Good (c : Cfg) (p : PortId) (P : Port) : Prop where
  inv : P.Inv c p
  decoder : ∀ r, P.rx = some r → r.Coherent
  drain : ∀ d T, P.drain = some d → P.tx = some T → d.Coherent T

/-- The operation has a next state, and it is good: no fault and no refusal (R274). -/
def Progresses (x : Result) : Prop := ∃ t, x = .next t ∧ t.Good

section updates
variable {s t : State} {p : PortId} {a : Agent}

theorem Progresses.next (h : t.Good) : Progresses (.next t) := ⟨t, rfl, h⟩

theorem State.Good.port {P : Port} (h : s.Good) (hP : s.port? p = some P) : P.Good s.cfg p where
  inv := h.inv.ports_inv p P hP
  decoder := fun r hr => h.decoder p r (by rw [State.rx?, hP]; exact hr)
  drain := fun d T hd hT =>
    h.drain p d T ((State.drain?_of_port? hP).trans hd) ((State.tx?_of_port? hP).trans hT)

/-- A good state is one with sound registers and good ports, in which every agent has its own operations to do and the
drain tasks none. -/
theorem State.Good.of_ports (hI : s.Inv) (hports : ∀ p P, s.port? p = some P → P.Good s.cfg p)
    (hprograms : ∀ a i, i ∈ (s.ctx a).todo → Instr.isTask a i = true)
    (hloops : ∀ p, (s.ctx (.drain p)).todo = []) : s.Good where
  inv := hI
  decoder := fun p r hr => by
    obtain ⟨P, hP, hrx⟩ := State.port?_of_rx? hr
    exact (hports p P hP).decoder r hrx
  drain := fun p d T hd hT => by
    obtain ⟨P, hP, hdrain⟩ := State.port?_of_drain? hd
    exact (hports p P hP).drain d T hdrain ((State.tx?_of_port? hP).symm.trans hT)
  programs := hprograms
  loops := hloops

/-! ### The updates of a state that keep it good -/

/-- A change of the agents' records that leaves every agent its own operations. -/
theorem State.Good.records (h : s.Good) (hc : t.cfg = s.cfg) (hp : t.ports = s.ports)
    (hprograms : ∀ a i, i ∈ (t.ctx a).todo → Instr.isTask a i = true)
    (hloops : ∀ p, (t.ctx (.drain p)).todo = []) : t.Good :=
  .of_ports (h.inv.congr hc hp) (fun p _ hP => hc ▸ h.port ((State.port?_of_ports hp p).symm.trans hP)) hprograms hloops

/-- A change of the agents' records that leaves what they have to do. -/
theorem State.Good.same_todo (h : s.Good) (hc : t.cfg = s.cfg) (hp : t.ports = s.ports)
    (htodo : ∀ a, (t.ctx a).todo = (s.ctx a).todo) : t.Good :=
  h.records hc hp (fun a i hi => h.programs a i (htodo a ▸ hi)) fun p => (htodo _).trans (h.loops p)

theorem State.Good.turned (h : s.Good) (rest : List Agent) : (s.turned rest).Good := h.same_todo rfl rfl fun _ => rfl

theorem State.Good.setRet (h : s.Good) (v : Ret) : (s.setRet a v).Good :=
  h.same_todo rfl rfl fun b => s.setRet_todo a b v

theorem State.Good.payloadTaken (h : s.Good) (g : Generator) : (s.payloadTaken g).Good :=
  h.same_todo (s.payloadTaken_cfg g) (s.payloadTaken_ports g) fun b => congrArg Ctx.todo (s.payloadTaken_ctx g b)

/-- Operations of an agent's own in front of what it has to do; a drain task gets none. -/
theorem State.Good.pushWork (h : s.Good) {is : List Instr} (ha : ∀ p, a ≠ .drain p)
    (his : ∀ i ∈ is, Instr.isTask a i = true) : (s.pushWork a is).Good := by
  refine h.records (s.pushWork_cfg a is) (s.pushWork_ports a is) (fun b i hi => ?programs) fun p => ?loops
  case programs =>
    rw [State.pushWork_todo] at hi
    split at hi
    · next hab =>
      subst hab
      exact (List.mem_append.mp hi).elim (his i) (h.programs a i)
    · exact h.programs b i hi
  case loops => rw [State.pushWork_todo, if_neg (ha p), h.loops p]

/-- An agent that takes its first operation is left with operations of its own. -/
theorem State.Good.taken {i : Instr} {is : List Instr} (h : s.Good) (hw : (s.ctx a).todo = i :: is) :
    (s.setTodo a is).Good := by
  have htodo (b : Agent) : ((s.setTodo a is).ctx b).todo = if a = b then is else (s.ctx b).todo := by
    rw [State.setTodo, State.setCtx_ctx]
    split <;> rfl
  refine h.records rfl rfl (fun b j hj => ?programs) fun p => ?loops
  case programs =>
    rw [htodo] at hj
    split at hj
    · next hab =>
      subst hab
      exact h.programs a j (hw ▸ List.mem_cons_of_mem i hj)
    · exact h.programs b j hj
  case loops =>
    have ha : a ≠ .drain p := by
      rintro rfl
      rw [h.loops p] at hw
      cases hw
    rw [htodo, if_neg ha, h.loops p]

/-- A change of one port record that leaves it good. -/
theorem State.Good.modifyPort (h : s.Good) {f : Port → Port}
    (hf : ∀ P, s.port? p = some P → P.Good s.cfg p → (f P).Good s.cfg p) : (s.modifyPort p f).Good := by
  refine .of_ports (h.inv.modifyPort fun P hP _ => (hf P hP (h.port hP)).inv) (fun q Q hQ => ?_) h.programs h.loops
  rw [State.port?_modifyPort] at hQ
  split at hQ
  · next hpq =>
    subst hpq
    obtain ⟨P, hP, rfl⟩ := Option.map_eq_some_iff.mp hQ
    exact hf P hP (h.port hP)
  · exact h.port hQ

/-- The invariants and the coherence of a record look at its receiver, its ring and its drain task only. -/
theorem Port.Good.congr {c : Cfg} {P Q : Port} (h : P.Good c p) (hr : Q.rx = P.rx) (ht : Q.tx = P.tx)
    (hd : Q.drain = P.drain) : Q.Good c p where
  inv := ⟨hr ▸ h.inv.rx_inv, ht ▸ h.inv.tx_inv, hd ▸ ht ▸ h.inv.drain_tx⟩
  decoder := hr ▸ h.decoder
  drain := hd ▸ ht ▸ h.drain

theorem State.Good.setEnv (h : s.Good) (e : Env) : (s.setEnv p e).Good := h.modifyPort fun _ _ hP => hP.congr rfl rfl rfl

theorem State.Good.emit (h : s.Good) (es : List Event) : (s.emit p es).Good :=
  h.modifyPort fun _ _ hP => hP.congr rfl rfl rfl

theorem State.Good.boundary (h : s.Good) (cs : List BoundaryCall) : (s.boundary p cs).Good :=
  h.modifyPort fun _ _ hP => hP.congr rfl rfl rfl

theorem State.Good.takeInput (h : s.Good) (rest : List RxAnswer) : (s.takeInput p rest).Good :=
  (h.setEnv _).boundary _

theorem State.Good.setRx {r : Rx} (h : s.Good) (hr : r.Inv s.cfg p) (hcoh : r.Coherent) : (s.setRx p r).Good :=
  h.modifyPort fun _ _ hP => {
    inv := ⟨by rintro _ ⟨⟩; exact hr, hP.inv.tx_inv, hP.inv.drain_tx⟩
    decoder := by rintro _ ⟨⟩; exact hcoh
    drain := hP.drain }

/-- A sound ring that the port's drain task, if there is one, has seen nothing of that is not there. -/
theorem State.Good.setTx {T : Ring} (h : s.Good) (hT : T.Inv) (hcoh : ∀ d, s.drain? p = some d → d.Coherent T) :
    (s.setTx p T).Good :=
  h.modifyPort fun _ hport hP => {
    inv := ⟨hP.inv.rx_inv, by rintro _ ⟨⟩; exact hT, fun _ => rfl⟩
    decoder := hP.decoder
    drain := by rintro d _ hd ⟨⟩; exact hcoh d ((State.drain?_of_port? hport).trans hd) }

/-- A port's drain task at a line for which its ring holds what the line needs. -/
theorem State.Good.setDrain {d d' : Drain} {T : Ring} (h : s.Good) (hd : s.drain? p = some d) (hT : s.tx? p = some T)
    (hcoh : d'.Coherent T) : (s.setDrain p d').Good :=
  h.modifyPort fun P hport hP => {
    inv := ⟨hP.inv.rx_inv, hP.inv.tx_inv, fun _ => hP.inv.drain_tx (by
      rw [(State.drain?_of_port? hport).symm.trans hd]; rfl)⟩
    decoder := hP.decoder
    drain := by
      rintro _ T' ⟨⟩ hT'
      cases ((State.tx?_of_port? hport).symm.trans hT).symm.trans hT'
      exact hcoh }

end updates

/-! ### The decoder makes progress (R180) -/

section decoder
variable {s : State} {p : PortId} {r : Rx} {f : Cfg → Rx → RxResult}

/-- A decoder operation that is total on the port's registers. -/
theorem State.Good.decoder_progresses (h : s.Good) (hr : s.rx? p = some r) (hf : RxTotal s.cfg p (f s.cfg r)) :
    Progresses (s.decoder p f) := by
  obtain ⟨o, ho, hI, hcoh⟩ := hf
  rw [State.decoder_eq hr ho]
  exact .next (((h.setRx hI.rx hcoh).emit _).pushWork nofun hI.work)

theorem State.Good.rxStep_progresses (h : s.Good) (hr : s.rx? p = some r) (b : Byte) :
    Progresses (exec (.rxStep p b) s) :=
  h.decoder_progresses (f := fun c r => rxStep c b r) hr (rxStep_total (h.inv.rx hr) (h.decoder p r hr) b)

/-- The bytes of a frame, fed one after the other (R110). -/
theorem State.Good.feed_progresses (h : s.Good) (hr : s.rx? p = some r) (bytes : Cfg → List Byte) :
    Progresses (s.decoder p fun c r => rxFeed c (bytes c) r) :=
  h.decoder_progresses (f := fun c r => rxFeed c (bytes c) r) hr (rxFeed_total (h.inv.rx hr) (h.decoder p r hr))

/-- The row of a byte is the byte step (R182). -/
theorem State.Good.byte_progresses {b : Byte} {i : Instr} (h : s.Good) (hr : s.rx? p = some r)
    (hi : decode (s.decodeCtx p r) [b] = .instr i) : Progresses (exec i s) :=
  Decoder.byteRowsAreByteSteps s p r b i hr hi ▸ h.rxStep_progresses hr b

/-- Whatever the transport answers, a round of the decode task goes on (R253, R254). -/
theorem State.Good.decodeTaskIteration_progresses (h : s.Good) (hr : s.rx? p = some r) :
    Progresses (exec (.decodeTaskIteration p) s) := by
  cases hi : (s.env p).input with
  | nil => exact exec_decodeTaskIteration_waits hr hi ▸ .next h
  | cons answer rest =>
    cases answer with
    | timeout => exact exec_decodeTaskIteration_timeout hr hi ▸ .next (h.takeInput rest)
    | byte b =>
      rw [exec_decodeTaskIteration_byte hr hi]
      exact (h.takeInput rest).rxStep_progresses ((State.takeInput_rx? rest).trans hr) b

/-- A handler's return leaves the decode task with its reply requests (R226). -/
theorem State.Good.handlerReturned (h : s.Good) (hr : s.rx? p = some r) (replies : List Reply)
    (more : List (List Reply)) : (s.handlerReturned p r replies more).Good := by
  have hI : ({ r with inHandler := none } : Rx).Inv s.cfg p := (h.inv.rx hr).congr rfl rfl rfl rfl rfl
  refine ((h.setEnv _).setRx hI (h.decoder p r hr)).pushWork nofun fun i hi => ?_
  obtain ⟨reply, -, rfl⟩ := List.mem_map.mp hi
  exact decide_eq_true rfl

end decoder

/-! ### A send takes no committed byte away (R145, R171) -/

section send
variable {s : State} {p : PortId} {who : Agent} {T T' : Ring} {bs : List Byte} {d : Drain}

/-- The drain task still finds what it has seen in a ring that holds as many committed bytes or more. -/
theorem Drain.Coherent.mono (h : d.Coherent T) (hc : T.CursorsIn) (hc' : T'.CursorsIn) (hu : T.used ≤ T'.used) :
    d.Coherent T' := by
  have hnonempty (hne : T.head ≠ T.tail) : T'.head ≠ T'.tail := by
    have htail := hc.2
    rw [Ring.used_eq hc, Ring.used_eq hc'] at hu
    split at hu <;> split at hu <;> omega
  intro hs
  have hline := h hs
  revert hline
  cases d.line with
  | testEmpty => exact id
  | queryActive | readRun => exact hnonempty
  | sendRun bs | settle bs ok => exact And.imp_right hu.trans'

/-- What was appended is committed behind the bytes that were. -/
theorem Ring.Appended.used_eq (h : T.Appended T' bs) (hc : T.CursorsIn) (hn : bs.length ≤ T.free) :
    T'.used = T.used + bs.length := by
  rw [← Ring.used_commit hc hn]
  simp only [Ring.used, h.size, h.head, h.tail, Ring.dropCall_size, Ring.dropCall_tail]

theorem Ring.OnlyStale.used_eq (h : T.OnlyStale T') : T'.used = T.used := by
  simp only [Ring.used, h.size, h.head, h.tail]

/-- A generator call commits its frame or nothing, and takes no committed byte away. -/
theorem Ring.used_le_generate (c : Cfg) (cmd : Byte) (payload : Option (List Byte)) (hc : T.CursorsIn) :
    T.used ≤ (T.generate c cmd payload).1.used := by
  rw [Ring.generate_eq_genGeneric]
  generalize payload.getD [] = data
  by_cases hfull : 255 < data.length ∨ T.free < data.length + 6 ∨ T.free < (wire c.sync (frameFor c cmd data)).length
  · obtain ⟨T', cause, hout, hstale⟩ := Ring.genGeneric_fails c hc hfull
    rw [hout]
    exact hstale.used_eq.ge
  · simp only [not_or, Nat.not_lt] at hfull
    obtain ⟨hn, hroom, hfits⟩ := hfull
    obtain ⟨T', hout, happ, -⟩ := (Ring.genGeneric_frameFor c cmd hc hn).exists_appended hroom hfits
    rw [hout]
    exact (Nat.le_add_right ..).trans_eq (happ.used_eq hc hfits).symm

/-- A send, from its claim to its release, leaves a good state, with the signal to make when it succeeded (R241). -/
theorem State.Good.generateAndRelease (h : s.Good) (hw : ∀ q, who ≠ .drain q) (cmd : Byte)
    (payload : Option (List Byte)) (hT : s.tx? p = some T) : (s.generateAndRelease who cmd p payload T).Good := by
  have hI := h.inv.tx hT
  have hclaimed : (T.claim who).CursorsIn := hI.cursorsIn
  have hI' := ((hI.claim who).generate (by simp) s.cfg cmd payload).release
  have hused : T.used ≤ ((T.claim who).generate s.cfg cmd payload).1.release.used :=
    Ring.used_le_generate (T := T.claim who) s.cfg cmd payload hclaimed
  refine (((h.setTx hI' fun d hd => ?coherent).emit _).setRet _).pushWork hw fun i hi => ?signal
  case coherent => exact (h.drain p d T hd hT).mono hI.cursorsIn hI'.cursorsIn hused
  case signal =>
    split at hi
    · obtain rfl := List.mem_singleton.mp hi
      rfl
    · cases hi

/-- `generate_and_send` answers false, waits with itself to do, or sends (R241). -/
theorem State.Good.generateAndSend_progresses {self : Instr} (h : s.Good) (hw : ∀ q, who ≠ .drain q)
    (hself : Instr.isTask who self = true) (cmd : Byte) (data : List Byte) :
    Progresses (s.generateAndSend self who cmd p data) := by
  rcases s.generateAndSend_cases self who cmd p data with ⟨-, he⟩ | ⟨T, hT, ⟨-, he⟩ | ⟨g, -, ⟨x, -, he⟩ | ⟨-, he⟩⟩⟩ <;>
    rw [he]
  · exact .next (h.setRet _)
  · exact .next (h.setRet _)
  · exact .next (h.pushWork hw (List.forall_mem_singleton.mpr hself))
  · have hT' : (s.payloadTaken g).tx? p = some T := by
      rw [← hT, State.tx?, State.tx?, State.port?_of_ports (s.payloadTaken_ports g)]
    exact .next ((h.payloadTaken g).generateAndRelease hw cmd _ hT')

theorem State.Good.signal_progresses (h : s.Good) (p : PortId) : Progresses (exec (.signal p) s) := by
  cases hd : s.drain? p with
  | none => exact exec_signal_noDrain hd ▸ .next h
  | some d =>
    rw [exec_signal (by rw [hd]; rfl)]
    exact .next (h.modifyPort fun _ _ hP => hP.congr rfl rfl rfl)

end send

/-! ### The drain task makes progress (R248, R249) -/

section drain
variable {s : State} {p : PortId} {d : Drain} {T : Ring} {bs : List Byte}

/-- A drain task stands on a transmitting port (R13). -/
theorem State.Inv.exists_ring (h : s.Inv) (hd : s.drain? p = some d) :
    ∃ (P : Port) (T : Ring), s.port? p = some P ∧ P.drain = some d ∧ P.tx = some T := by
  obtain ⟨P, hP, hPd⟩ := State.port?_of_drain? hd
  obtain ⟨T, hT⟩ := Option.isSome_iff_exists.mp ((h.ports_inv p P hP).drain_tx (by rw [hPd]; rfl))
  exact ⟨P, T, hP, hPd, hT⟩

/-- Outside its loop the drain task has seen nothing. -/
theorem Drain.coherent_asleep (T : Ring) : Drain.asleep.Coherent T := nofun

theorem State.Good.drainWake_progresses (h : s.Good) (hd : s.drain? p = some d) :
    Progresses (exec (.drainWake p) s) := by
  obtain ⟨P, T, hP, hPd, hT⟩ := h.inv.exists_ring hd
  rw [exec_drainWake hP hPd]
  split
  · exact .next (h.modifyPort fun Q hQ hG => {
      inv := ⟨hG.inv.rx_inv, hG.inv.tx_inv, fun _ => by
        cases hP.symm.trans hQ
        exact hT ▸ rfl⟩
      decoder := hG.decoder
      drain := by rintro _ T ⟨⟩ - -; trivial })
  · exact .next h

/-- Leaving the loop loses nothing the task needs (R250). -/
theorem State.Good.abortDrain (h : s.Good) (hd : s.drain? p = some d) (hT : s.tx? p = some T) (cause : DrainCause) :
    (s.abortDrain p cause).Good :=
  (h.setDrain hd hT (Drain.coherent_asleep T)).emit _

theorem State.Good.drainTest (h : s.Good) (hd : s.drain? p = some d) (hT : s.tx? p = some T) :
    (s.drainTest p T).Good := by
  by_cases he : T.head = T.tail
  · rw [State.drainTest_empty he]
    exact h.setDrain hd hT (Drain.coherent_asleep T)
  · rw [State.drainTest_nonempty he]
    exact h.setDrain hd hT fun _ => he

theorem State.Good.drainQuery (h : s.Good) (hd : s.drain? p = some d) (hT : s.tx? p = some T)
    (hne : T.head ≠ T.tail) : (s.drainQuery p).Good := by
  unfold State.drainQuery
  split
  · exact h
  · next answer rest _ =>
    have hasked := (h.setEnv (p := p) { s.env p with active := rest }).boundary (p := p) [.isActive]
    split
    · exact hasked.setDrain (d := d) (by simpa using hd) (by simpa using hT) fun _ => hne
    · exact hasked.abortDrain (d := d) (by simpa using hd) (by simpa using hT) .inactive

/-- The readable run of a sound ring with committed bytes is there to be read, and the ring still holds it (R141). -/
theorem State.Good.drainRead_progresses (h : s.Good) (hd : s.drain? p = some d) (hT : s.tx? p = some T)
    (hne : T.head ≠ T.tail) : Progresses (s.drainRead p T) := by
  have hI := h.inv.tx hT
  obtain ⟨bs, hn, hb⟩ := hI.exists_run
  obtain ⟨-, hused, -, hpos⟩ := Ring.readableRun_spec hI.cursorsIn
  rw [State.drainRead_holds hI.cursorsIn hb hn]
  have hheld : 0 < bs.length ∧ bs.length ≤ T.used := hn ▸ ⟨hpos hne, hused⟩
  exact .next (h.setDrain hd hT fun _ => hheld)

theorem State.Good.drainSend (h : s.Good) (hd : s.drain? p = some d) (hT : s.tx? p = some T)
    (hn : 0 < bs.length ∧ bs.length ≤ T.used) : (s.drainSend p bs).Good := by
  unfold State.drainSend
  split
  · exact h
  · exact ((h.setEnv _).boundary _).setDrain (d := d) (by simpa using hd) (by simpa using hT) fun _ => hn

/-- The advance is within the committed bytes (R143). -/
theorem State.Good.drainSettle_progresses (h : s.Good) (hd : s.drain? p = some d) (hT : s.tx? p = some T)
    (hn : 0 < bs.length ∧ bs.length ≤ T.used) (ok : Bool) : Progresses (s.drainSettle p T bs ok) := by
  cases ok with
  | false => exact .next (h.abortDrain hd hT .sendFailed)
  | true =>
    rw [State.drainSettle_sent hn]
    exact .next (h.modifyPort fun _ _ hP => {
      inv := ⟨hP.inv.rx_inv, by rintro _ ⟨⟩; exact (h.inv.tx hT).advance hn.2, fun _ => rfl⟩
      decoder := hP.decoder
      drain := by rintro _ _ ⟨⟩ - -; trivial })

/-- Each line of the loop finds in the ring what the lines before it have seen (R249). -/
theorem State.Good.drainLine_progresses (h : s.Good) (hd : s.drain? p = some d) (hT : s.tx? p = some T)
    (hs : d.state = .draining) : Progresses (s.drainLine p T d.line) := by
  have hline := h.drain p d T hd hT hs
  revert hline
  cases d.line with
  | testEmpty => exact fun _ => .next (h.drainTest hd hT)
  | queryActive => exact fun hne => .next (h.drainQuery hd hT hne)
  | readRun => exact h.drainRead_progresses hd hT
  | sendRun bs => exact fun hn => .next (h.drainSend hd hT hn)
  | settle bs ok => exact fun hn => h.drainSettle_progresses hd hT hn ok

theorem State.Good.drainIteration_progresses (h : s.Good) (hd : s.drain? p = some d) (hs : d.state = .draining) :
    Progresses (exec (.drainIteration p) s) := by
  obtain ⟨P, T, hP, hPd, hT⟩ := h.inv.exists_ring hd
  rw [exec_drainIteration_draining hP hPd hT hs rfl]
  exact h.drainLine_progresses hd ((State.tx?_of_port? hP).trans hT) hs

end drain

/-! ### The turns make progress -/

section turns
variable {s t : State} {a : Agent} {i : Instr} {x : Fetched}

/-- What the spec's agents have to do is theirs to do (R285). -/
theorem mayExecute_of_isTask (h : Instr.isTask a i = true) : mayExecute a i = true := by
  cases i with
  | generateAndSend who => exact decide_eq_true (of_decide_eq_true h).symm
  | signal => rfl
  | rxSendAck | rxStep | frameHeaderOnly | frameWithData => exact h
  | _ => cases h

/-- The operations of the spec's own agents, whose unit is there to execute them. -/
theorem State.Good.task_progresses (h : s.Good) (hi : Instr.isTask a i = true) (ha : ∀ p, a ≠ .drain p)
    (hd : ∀ p, a = .decode p → ∃ r, s.rx? p = some r) : Progresses (exec i s) := by
  cases i with
  | generateAndSend who cmd p data =>
    obtain rfl := of_decide_eq_true hi
    exact h.generateAndSend_progresses ha hi cmd data
  | signal p => exact h.signal_progresses p
  | rxSendAck p =>
    obtain rfl := of_decide_eq_true hi
    exact h.generateAndSend_progresses ha hi ackCmd []
  | rxStep p b =>
    obtain ⟨r, hr⟩ := hd p (of_decide_eq_true hi)
    exact h.rxStep_progresses hr b
  | frameHeaderOnly p ack id crc8 =>
    obtain ⟨r, hr⟩ := hd p (of_decide_eq_true hi)
    exact h.feed_progresses hr fun c => wire c.sync (headerBytes c.sync (cmdByte ack id) 0 crc8)
  | frameWithData p ack id crc8 data crc16 =>
    obtain ⟨r, hr⟩ := hd p (of_decide_eq_true hi)
    exact h.feed_progresses hr fun c => wire c.sync (dataFrameBytes c.sync (cmdByte ack id) crc8 data crc16)
  | _ => cases hi

/-- No turn of a good state is a misuse. -/
theorem FetchCases.not_misuse (hx : FetchCases a s .misuse) (h : s.Good) : False := by
  cases hx with
  | misuse i is hw hm =>
    rw [mayExecute_of_isTask (h.programs a i (hw ▸ List.mem_cons_self))] at hm
    cases hm

theorem FetchCases.moved_good (hx : FetchCases a s (.moved t)) (h : s.Good) : t.Good := by
  cases hx with
  | returned p r replies rest ha hr hs => exact h.handlerReturned hr replies rest

/-- Whatever a turn of a good state executes makes progress. -/
theorem FetchCases.run_progresses (hx : FetchCases a s (.run i t)) (h : s.Good) : Progresses (exec i t) := by
  cases hx with
  | work _ is hw hd hq hm =>
    refine (h.taken hw).task_progresses (h.programs a i (hw ▸ List.mem_cons_self)) ?notDrain ?receiver
    case notDrain =>
      rintro p rfl
      rw [h.loops p] at hw
      cases hw
    case receiver =>
      intro p hp
      obtain ⟨r, hr, -⟩ := hd p hp
      exact ⟨r, hr⟩
  | byte p r b _ rest ha hr hs hi => exact (h.takeInput rest).byte_progresses ((State.takeInput_rx? rest).trans hr) hi
  | round p r ha hr hs => exact h.decodeTaskIteration_progresses hr
  | wake p d ha hd hs => exact h.drainWake_progresses hd
  | line p d ha hd hs => exact h.drainIteration_progresses hd hs

end turns

/-- Settles O59: a step waits, lets a handler return, or executes an operation that makes progress in a good state. -/
theorem stepProgress : Obligations.StepProgress := by
  intro s h
  rcases step_cases s with ⟨-, he⟩ | ⟨a, rest, -, x, hx, he⟩ <;> rw [he]
  · exact Progresses.next h
  · have hturned := h.turned rest
    cases x with
    | idle => exact Progresses.next hturned
    | moved t => exact Progresses.next (hx.moved_good hturned)
    | run i t => exact hx.run_progresses hturned
    | misuse => exact (hx.not_misuse hturned).elim

end Sys2Proof.Machine

/-! SUPPORT. The statements of `spec/70_reset_and_hazards.md`. The state after initialisation has one record for each
port of the build, made from that port's configuration; each unit of a record is there as the build says, with its reset
registers. A legal build gives every record a ring of legal size under its drain task, so every record is good. -/

namespace Sys2Proof.Machine

/-! ### The state after initialisation (R300) -/

section initialisation
variable {b : Build} {c : PortCfg} {p : PortId} {P : Port}

/-- Each port of the build gets the reset record of its configuration. -/
theorem State.resetOf_port? (b : Build) (p : PortId) :
    (State.resetOf b).port? p = b.ports[p]?.map (Port.reset p) := List.getElem?_mapIdx

theorem State.resetOf_port?_some (hc : b.ports[p]? = some c) : (State.resetOf b).port? p = some (Port.reset p c) := by
  rw [State.resetOf_port?, hc, Option.map_some]

/-- Every port record after initialisation is the reset record of one of the build's ports. -/
theorem State.exists_portCfg_of_resetOf_port? (hP : (State.resetOf b).port? p = some P) :
    ∃ c, b.ports[p]? = some c ∧ P = Port.reset p c := by
  rw [State.resetOf_port?] at hP
  obtain ⟨c, hc, hPc⟩ := Option.map_eq_some_iff.mp hP
  exact ⟨c, hc, hPc.symm⟩

/-! ### The units of a reset record -/

theorem Port.reset_rx_eq_some {r : Rx} : (Port.reset p c).rx = some r ↔ c.hasRx = true ∧ r = Rx.reset p := by
  simp [Port.reset, @eq_comm _ r]

theorem Port.reset_tx_eq_some {T : Ring} :
    (Port.reset p c).tx = some T ↔ ∃ n, c.cbSize = some n ∧ T = Ring.reset n := by
  simp [Port.reset, @eq_comm _ T]

theorem Port.reset_drain_eq_some {d : Drain} :
    (Port.reset p c).drain = some d ↔ c.hasDrain = true ∧ d = Drain.reset := by
  simp [Port.reset, @eq_comm _ d]

/-! ### What a legal build says (R5, R6, R13) -/

theorem Build.wf_iff : b.wf = true ↔
    b.cfg.wf = true ∧ (1 ≤ b.ports.length ∧ b.ports.length ≤ 5) ∧ ∀ c ∈ b.ports, c.wf = true := by
  simp [Build.wf, and_assoc]

theorem PortCfg.wf_cbSize {n : Nat} (h : c.wf = true) (hn : c.cbSize = some n) : 7 ≤ n := by
  simp only [PortCfg.wf, hn, decide_eq_true_eq] at h
  exact h.1

/-- A drain task exists on a transmitting port only. -/
theorem PortCfg.wf_hasDrain (h : c.wf = true) (hd : c.hasDrain = true) : ∃ n, c.cbSize = some n := by
  cases hn : c.cbSize with
  | some n => exact ⟨n, rfl⟩
  | none => simp [PortCfg.wf, hn, hd] at h

/-! ### A reset record is good -/

theorem Port.inv_reset (cfg : Cfg) (p : PortId) (h : c.wf = true) : (Port.reset p c).Inv cfg p where
  rx_inv := fun r hr => by
    obtain ⟨-, rfl⟩ := Port.reset_rx_eq_some.mp hr
    exact Rx.inv_reset cfg p
  tx_inv := fun T hT => by
    obtain ⟨n, hn, rfl⟩ := Port.reset_tx_eq_some.mp hT
    exact Ring.inv_reset (PortCfg.wf_cbSize h hn)
  drain_tx := fun hd => by
    obtain ⟨d, hd⟩ := Option.isSome_iff_exists.mp hd
    obtain ⟨hdrain, -⟩ := Port.reset_drain_eq_some.mp hd
    obtain ⟨n, hn⟩ := PortCfg.wf_hasDrain h hdrain
    exact Option.isSome_iff_exists.mpr ⟨Ring.reset n, Port.reset_tx_eq_some.mpr ⟨n, hn, rfl⟩⟩

theorem Port.good_reset (cfg : Cfg) (p : PortId) (h : c.wf = true) : (Port.reset p c).Good cfg p where
  inv := Port.inv_reset cfg p h
  decoder := fun r hr => by
    obtain ⟨-, rfl⟩ := Port.reset_rx_eq_some.mp hr
    exact Rx.coherent_reset p
  drain := fun d T hd _ => by
    obtain ⟨-, rfl⟩ := Port.reset_drain_eq_some.mp hd
    exact Drain.coherent_asleep T

/-! ### The state of a legal build -/

theorem State.resetOf_port_good (h : b.wf = true) (hP : (State.resetOf b).port? p = some P) : P.Good b.cfg p := by
  obtain ⟨-, -, hports⟩ := Build.wf_iff.mp h
  obtain ⟨c, hc, rfl⟩ := State.exists_portCfg_of_resetOf_port? hP
  exact Port.good_reset b.cfg p (hports c (List.mem_of_getElem? hc))

theorem State.resetOf_inv (h : b.wf = true) : (State.resetOf b).Inv := by
  obtain ⟨hcfg, hlength, -⟩ := Build.wf_iff.mp h
  exact {
    cfg_wf := hcfg
    ports_le := by rwa [State.resetOf, List.length_mapIdx]
    ports_inv := fun _ _ hP => (State.resetOf_port_good h hP).inv }

/-- After initialisation no agent has anything to do. -/
theorem State.resetOf_todo (b : Build) (a : Agent) : ((State.resetOf b).ctx a).todo = [] := rfl

theorem State.resetOf_good (h : b.wf = true) : (State.resetOf b).Good :=
  .of_ports (State.resetOf_inv h) (fun _ _ hP => State.resetOf_port_good h hP)
    (fun a i hi => by rw [State.resetOf_todo] at hi; cases hi) fun p => State.resetOf_todo b (.drain p)

end initialisation

/-- Settles O56: the port's record is the reset record of its configuration, whose units hold the values of R300. -/
theorem resetValues : Obligations.ResetValues := by
  intro b p c hc
  have hport : (State.resetOf b).port? p = some (Port.reset p c) := State.resetOf_port?_some hc
  refine ⟨fun hrx => ?receiver, fun n hn => ?ring, fun hd => ?drain, fun P hP => ?pending⟩
  case receiver =>
    refine ⟨Rx.reset p, ?_, rfl, rfl, rfl, rfl⟩
    rw [State.rx?, hport, Option.bind_some]
    exact Port.reset_rx_eq_some.mpr ⟨hrx, rfl⟩
  case ring =>
    exact ⟨Ring.reset n, (State.tx?_of_port? hport).trans (Port.reset_tx_eq_some.mpr ⟨n, hn, rfl⟩), rfl, rfl, rfl, rfl⟩
  case drain =>
    exact ⟨Drain.reset, (State.drain?_of_port? hport).trans (Port.reset_drain_eq_some.mpr ⟨hd, rfl⟩), rfl⟩
  case pending =>
    cases hport.symm.trans hP
    rfl

/-- Settles O57: every record of a legal build is good, and no agent has anything to do. -/
theorem resetGood : Obligations.ResetGood := fun _ h => ⟨State.resetOf_inv h, State.resetOf_good h⟩

end Sys2Proof.Machine
